-- ==== Sys2Proof/Word.lean ====
section
/-! DEFINITION. The word types of the TJ216 (spec/00_scope.md, Conventions): bytes, lines of 64
bytes, line indexes of 34 bits, byte addresses of 40 bits. A block of bytes is one bit vector with
byte `k` in bits `8k+7 .. 8k`, which is the little-endian order of the manual. -/

namespace Sys2Proof

/-- One byte. -/
abbrev Byte := BitVec 8

/-- The 64 bytes of one line, byte `k` in bits `8k+7 .. 8k` (memory order, Conventions). -/
abbrev Line := BitVec 512

/-- A line index: the byte address divided by 64, 34 significant bits. -/
abbrev LineIndex := BitVec 34

/-- A 40-bit byte address. -/
abbrev Addr := BitVec 40

end Sys2Proof
end

