-- ==== Sys2Proof/Syntax.lean ====
section
/-! DEFINITION. The commands of the block: one constructor per row of spec/opcode_table.json, in the
table's order. The table gives its rows no operand fields; the operands here are what the rules say
the requester, the DRAM controller, the supervisor or a pin brings with each step. -/

namespace Sys2Proof

/-- The kind of a transaction or of a memory request (R38, R145). -/
inductive Access where
  | read
  | write
  deriving DecidableEq, Repr

/-- A P-port transaction (R38). `mask` has one bit per byte of the line. -/
structure Transaction where
  requester : BitVec 4
  tag : BitVec 6
  kind : Access
  addr : Addr
  size : Nat
  mask : BitVec 64
  data : Line
  deriving DecidableEq, Repr

/-- The DRAM controller's answer: OKAY, with the line's bytes for a read, or ERROR (R147). -/
inductive MemAnswer where
  | okay (data : Line)
  | error
  deriving DecidableEq, Repr

/-- The address that a controller puts on the I2C bus: 7 bits, the general call being 0, or 10 bits
(R155). -/
inductive BusAddress where
  | sevenBit (address : BitVec 7)
  | tenBit (address : BitVec 10)
  deriving DecidableEq, Repr

/-- What a write transaction begins with: the address on the bus, and the index byte (R155, R156). -/
structure WriteTarget where
  address : BusAddress
  index : Byte
  deriving DecidableEq, Repr

/-- The commands (steps) of the TJ216. -/
inductive Instr where
  /-- P_TRANSACTION_ACCEPT (R47): a requester offers `t`. -/
  | pTransactionAccept (t : Transaction)
  /-- ARBITER_GRANT (R149): the granted request takes the identifier `ident` (R146 asks only that it
  is free); `tie` names one of the requests that joined together (R149: either may be the older). -/
  | arbiterGrant (ident : BitVec 8) (tie : Nat)
  /-- M_PORT_ANSWER (R147): the DRAM controller answers the request `ident`. -/
  | mPortAnswer (ident : BitVec 8) (answer : MemAnswer)
  /-- RESPONSE_TIMEOUT (R148) of the request `ident`. -/
  | responseTimeout (ident : BitVec 8)
  /-- IDENTIFIER_WITHHOLD_EXPIRY (R146) of `ident`. -/
  | identifierWithholdExpiry (ident : BitVec 8)
  /-- EPOCH_TIMER_EXPIRY (R98). -/
  | epochTimerExpiry
  /-- GATHER_END (R103). -/
  | gatherEnd
  /-- DRAIN_END (R117). -/
  | drainEnd
  /-- FAULT_EDGE (R178). -/
  | faultEdge
  /-- FAULT_LEVEL_FALL (R52). -/
  | faultLevelFall
  /-- FENCE_RELEASE_TIMER_EXPIRY (R53). -/
  | fenceReleaseTimerExpiry
  /-- POWER_ON_RESET (R180). -/
  | powerOnReset
  /-- RESET_N_ASSERT (R180). -/
  | resetNAssert
  /-- RESET_N_END (R180), with the ADDR pins and the first FAULT sample (R155, R177). -/
  | resetNEnd (addr1 addr0 faultLevel : Bool)
  /-- SET_JOURNAL (R20), parameters in PARAM. -/
  | setJournal
  /-- SET_REGION (R44), parameters in PARAM. -/
  | setRegion
  /-- SET_POLICY (R164), parameters in PARAM. -/
  | setPolicy
  /-- START (R11). -/
  | start
  /-- STOP (R107). -/
  | stop
  /-- SEAL (R101). -/
  | seal
  /-- ROLLBACK (R113), target in PARAM. -/
  | rollback
  /-- VERIFY (R135). -/
  | verify
  /-- RELEASE (R54). -/
  | release
  /-- RECOVER (R131). -/
  | recover
  /-- READ_CHECKPOINTS (R144). -/
  | readCheckpoints
  /-- READ_RECORD (R142), position in PARAM. -/
  | readRecord
  /-- ABORT (R163). -/
  | abort
  /-- INVALID_COMMAND_CODE (R160): `value` is written to CMD. -/
  | invalidCommandCode (value : Byte)
  /-- TIMER_CTL_WRITE (R94): the data bytes of one write transaction. -/
  | timerCtlWrite (bytes : List Byte)
  /-- EVENT_ACK (R175): the data bytes of one write transaction. -/
  | eventAck (bytes : List Byte)
  /-- ALERT_MASK_WRITE (R176): the data bytes of one write transaction. -/
  | alertMaskWrite (bytes : List Byte)
  /-- REGISTER_WRITE (R157): address (R155), index byte and data bytes of one write transaction on the
  bus. The other rows that write a register are transactions to the part's own address. -/
  | registerWrite (target : WriteTarget) (bytes : List Byte)
  /-- POWER_ON_RESET_END (R155), with the ADDR pins and the first FAULT sample. -/
  | powerOnResetEnd (addr1 addr0 faultLevel : Bool)
  deriving DecidableEq, Repr

end Sys2Proof
end

