-- ==== Sys2Proof/Config.lean ====
section
/-! DEFINITION. What a given part fixes, the sizes the manual states, and the values the manual
leaves open. A free value is `opaque` and has no body: nothing can be proved of it. -/

namespace Sys2Proof

/-- IDENT's revision byte: fixed for a given part, its value not stated (R182). Log entry 6. -/
opaque Config.revision : Byte

/-- Which of the three modes (R41, R183) a region entry holds after a SET_REGION that makes it not
valid: R44 does not examine the parameters and states no contents. Applied to the state's draw
counter. Log entry 7. -/
opaque Config.notValidMode : Nat → Fin 3

/-- The base line index that such an entry holds. Log entry 7. -/
opaque Config.notValidBase : Nat → LineIndex

/-- The limit line index that such an entry holds. Log entry 7. -/
opaque Config.notValidLimit : Nat → LineIndex

/-- The byte address of a restore write for a record whose 40-bit line index has one of its upper
six bits set: `line index × 64` does not fit 40 bits and R122 states no address. Log entry 8. -/
opaque Config.wideLineAddress : BitVec 40 → Addr

/-- Whether a read that VERIFY or the restore walk no longer needs stays in the waiting set when it
has not been granted yet (R141 and R124 speak of outstanding reads only). Log entry 9. -/
opaque Config.abandonedStaysWaiting : Bool

/-- READ_RECORD's computed check when one of its two reads failed: R143 takes it over the bytes as read
and states no value where bytes were not read. Applied to the state's draw counter. Log entry 23. -/
opaque Config.failedReadCheck : Nat → BitVec 16

/-- Places of the Write Admission Queue (R56). -/
def Config.waqPlaces : Nat := 32
/-- Entries of the Capture Buffer (R70). -/
def Config.captureEntries : Nat := 16
/-- Ways of one LTT set (R65). -/
def Config.lttWays : Nat := 4
/-- Request slots of the M port (R146). -/
def Config.requestSlots : Nat := 64
/-- The reserve of the journal ring in records (R31). -/
def Config.reserve : Nat := 64
/-- Attempts of one record line write, restore request or checker read (R29, R124, R136). -/
def Config.attempts : Nat := 3
/-- The greatest epoch number, 2^48 - 1 (R3, R15). -/
def Config.epochLimit : Nat := 2 ^ 48 - 1
/-- The epoch timer's tick is 10 µs; 100 of them are 1 ms (Conventions). -/
def Config.ticksPerMs : Nat := 100
/-- The response timeout of 1 ms, in ticks (R146). -/
def Config.responseTicks : Nat := 100
/-- The further 4 ms for which a timed-out identifier is withheld, in ticks (R146). -/
def Config.withholdTicks : Nat := 400

end Sys2Proof
end

