-- ==== Sys2Proof/Machine/State.lean ====
section
/-! DEFINITION. The state of the TJ216, block by block as the manual's block diagram lists them
(spec/00_scope.md), and the state right after reset. Epoch numbers, positions, counts and sizes are
natural numbers; what software sees as bits (lines, registers of the window, PARAM, RESULT) is a bit
vector. INVENTORY.md, "State", names the rule of every field. -/

namespace Sys2Proof.Machine

/-- The stops of the machine: none. No rule of spec/ stops the part; every command has an effect. -/
inductive Fault where
  deriving DecidableEq, Repr

/-- Refused commands. -/
inductive Refusal where
  /-- Raised by an arm of `exec` whose command has no meaning yet; safe. No arm raises it. -/
  | notModelled (mnemonic : String)
  deriving DecidableEq, Repr

/-! ### Reset, modes and the Checkpoint Table (chapters 1 and 11) -/

/-- Whether the part runs or is held by a reset (R180). Power-on reset and RESET_N each hold it: under
`resetN` the line alone does, under `powerOn` power-on reset does, and `resetNLow` says whether the line is
low too. -/
inductive ResetPhase where
  | running
  | resetN
  | powerOn (resetNLow : Bool)
  deriving DecidableEq, Repr

/-- The device mode (R1). -/
inductive Mode where
  | passthrough
  | journaling
  | broken
  deriving DecidableEq, Repr

/-- What opened an epoch or started an operation (R8, R80, R183). -/
inductive Source where
  | start
  | timer
  | pressure
  | command
  | journalFault
  | rollback
  | fault
  deriving DecidableEq, Repr

/-- State of a checkpoint entry (R4): OPEN or COMMITTED. -/
inductive EntryState where
  | stillOpen
  | committed
  deriving DecidableEq, Repr

/-- Condition of a checkpoint entry (R4). -/
inductive Condition where
  | usable
  | damaged
  | lost
  deriving DecidableEq, Repr

/-- An entry of the Checkpoint Table (R4). -/
structure Checkpoint where
  epoch : Nat
  start : Nat
  state : EntryState
  condition : Condition
  openedBy : Source
  repeats : Nat
  deriving DecidableEq, Repr

/-- The Epoch Controller (R1, R3, R4); the table is oldest first. -/
structure EpochCtl where
  mode : Mode
  counter : Nat
  table : List Checkpoint
  deriving DecidableEq, Repr

/-! ### The journal ring (chapter 2) -/

/-- The Journal Writer: geometry (R19), positions (R21) and the ended marks of R30, strictly rising.
`base` is a byte address. -/
structure Journal where
  base : Nat
  capacity : Nat
  depth : Nat
  head : Nat
  written : Nat
  tail : Nat
  ended : List Nat
  deriving DecidableEq, Repr

/-- A record as it is held until its writing has ended (R23): `header` is its 16 meaningful bytes. -/
structure Record where
  position : Nat
  image : Line
  header : BitVec 128
  repeated : Bool
  deriving DecidableEq, Repr

/-! ### Regions and gate (chapter 3) -/

/-- The mode of a line (R41). -/
inductive LineMode where
  | tracked
  | untracked
  | fenced
  deriving DecidableEq, Repr

/-- The unmapped mode (R41). -/
inductive Unmapped where
  | untracked
  | fenced
  deriving DecidableEq, Repr

/-- A region table entry (R41). An entry that is not valid holds a mode, a base and a limit too, which
RESULT shows (R167); it describes no lines. -/
inductive RegionEntry where
  | notValid (mode : LineMode) (base limit : LineIndex)
  | valid (mode : LineMode) (base limit : LineIndex)
  deriving DecidableEq, Repr

/-- The Region Decoder (R41). -/
structure Regions where
  active : Vector RegionEntry 8
  shadow : Vector RegionEntry 8
  activeUnmapped : Unmapped
  shadowUnmapped : Unmapped
  deriving DecidableEq, Repr

/-- The gate state (R47). -/
inductive GateState where
  | pass
  | holdTracked
  | holdAll
  | fence
  deriving DecidableEq, Repr

/-- Which release set *release armed* (R52). -/
inductive ReleaseCause where
  | command
  | timer
  deriving DecidableEq, Repr

/-- The Gate: its state (R47), *release armed* with the release that set it (R51, R52), and the fence
release timer (R53), in ticks of 10 µs while it runs. -/
structure Gate where
  state : GateState
  armed : Option ReleaseCause
  timer : Option Nat
  deriving DecidableEq, Repr

/-- The policy of SET_POLICY that has no other home (R164); the delay is in milliseconds. -/
structure Policy where
  faultEnable : Bool
  faultDepth : Nat
  fenceDelay : Nat
  deriving DecidableEq, Repr

/-! ### Write capture (chapter 4) -/

/-- State of a WAQ entry (R57). -/
inductive WaqState where
  | waiting
  | parked
  | captureWait
  | capturing
  | ready
  | issued
  deriving DecidableEq, Repr

/-- A WAQ entry (R56): the transaction, its state, the refusal mark of R49, and whether it was
accepted before the step at which the running seal or STOP started (R63). -/
structure WaqEntry where
  txn : Transaction
  state : WaqState
  marked : Bool
  beforeHold : Bool
  deriving DecidableEq, Repr

/-- Which line of a record is being written (R28). -/
inductive RecordLine where
  | image
  | header
  deriving DecidableEq, Repr

/-- State of a Capture Buffer entry (R70), with what the entry holds in it: the record from its
allocation on, and the attempt count of the line being written. -/
inductive CaptureState where
  | reading
  | staged (record : Record)
  | writing (record : Record) (line : RecordLine) (attempt : Nat)
  deriving DecidableEq, Repr

/-- A Capture Buffer entry in use (R70). `requester` and `tag` name the causing write. -/
structure CaptureEntry where
  line : LineIndex
  requester : BitVec 4
  tag : BitVec 6
  state : CaptureState
  deriving DecidableEq, Repr

/-! ### The operation slot (chapter 5) -/

/-- The operations of the slot (R80). -/
inductive Operation where
  | seal
  | stop
  | rollback
  | verify
  deriving DecidableEq, Repr

/-- The phases that last (R81). -/
inductive Phase where
  | gather
  | drain
  | restore
  | scan
  deriving DecidableEq, Repr

/-- A set of automatic seal sources: the joined sources of a seal (R80), or the owed flags (R90). -/
structure SealSources where
  timer : Bool
  pressure : Bool
  journalFault : Bool
  deriving DecidableEq, Repr

/-- What a busy slot records (R80). -/
structure Slot where
  operation : Operation
  source : Source
  phase : Phase
  joined : SealSources
  command : Bool
  moved : Bool
  deriving DecidableEq, Repr

/-- The Operation Controller (R80, R90, R92). -/
structure OpCtl where
  slot : Option Slot
  owed : SealSources
  abortPending : Bool
  deriving DecidableEq, Repr

/-! ### The epoch timer (chapter 6) -/

/-- The countdown (R95), with the ticks remaining. -/
inductive Countdown where
  | running (ticks : Nat)
  | paused (ticks : Nat)
  | stopped
  deriving DecidableEq, Repr

/-- The Epoch Timer (R94, R95). -/
structure EpochTimer where
  nextInterval : Nat
  extend : Bool
  activeInterval : Nat
  countdown : Countdown
  deriving DecidableEq, Repr

/-! ### Rollback and the Journal Checker (chapters 7 and 8) -/

/-- One read of a record's line: not asked for, outstanding in its `attempt`th attempt, answered OKAY,
or failed three times (R124, R136). -/
inductive ReadSlot where
  | idle
  | asking (attempt : Nat)
  | got (data : Line)
  | failed
  deriving DecidableEq, Repr

/-- The image line read and the header line read of one record. -/
structure ReadPair where
  image : ReadSlot
  header : ReadSlot
  deriving DecidableEq, Repr

/-- The Rollback Engine while a rollback runs (R112): `walk` is set when RESTORE begins. -/
structure Walk where
  targetEpoch : Nat
  targetStart : Nat
  walk : Option Nat
  current : ReadPair
  writeAttempt : Nat
  deriving DecidableEq, Repr

/-- Outcome of the Last Recovery Record (R132). -/
inductive RecoveryOutcome where
  | none
  | inProgress
  | completed
  | aborted
  | failedCheck
  | failedMemory
  | failedNoCheckpoint
  | interrupted
  deriving DecidableEq, Repr

/-- Trigger of the Last Recovery Record (R132). -/
inductive Trigger where
  | command
  | fault
  deriving DecidableEq, Repr

/-- Phase of the Last Recovery Record (R132). -/
inductive RecoveryPhase where
  | none
  | drain
  | restore
  | settle
  deriving DecidableEq, Repr

/-- The Last Recovery Record (R132). -/
structure LastRecovery where
  outcome : RecoveryOutcome
  trigger : Trigger
  phase : RecoveryPhase
  targetEpoch : Nat
  newEpoch : Nat
  toRestore : Nat
  restored : Nat
  failingPosition : Nat
  faults : Nat
  deriving DecidableEq, Repr

/-- The scan state of VERIFY (R135) and the reads of the record at the scan position (R136). -/
structure Scan where
  scanStart : Nat
  scanEnd : Nat
  position : Nat
  checked : Nat
  skipped : Nat
  bad : Nat
  unreadable : Nat
  firstBad : Nat
  current : ReadPair
  deriving DecidableEq, Repr

/-- A READ_RECORD waiting for its reads (R142). -/
structure Inspection where
  position : Nat
  current : ReadPair
  deriving DecidableEq, Repr

/-! ### The M port (chapter 9) -/

/-- The owner of a memory request: who acts on its answer (R145, R153). `abandoned` is a SERVICE
request whose owner no longer needs it. -/
inductive Owner where
  | waq (requester : BitVec 4) (tag : BitVec 6)
  | bypass (requester : BitVec 4) (tag : BitVec 6)
  | capture (requester : BitVec 4) (tag : BitVec 6)
  | journalImage (position : Nat)
  | journalHeader (position : Nat)
  | restoreImage
  | restoreHeader
  | restoreWrite
  | verifyImage
  | verifyHeader
  | inspectImage
  | inspectHeader
  | abandoned
  deriving DecidableEq, Repr

/-- The request classes (R145). -/
inductive RequestClass where
  | journal
  | capture
  | forward
  | service
  deriving DecidableEq, Repr

/-- A memory request (R145). `joined` is the value of the age clock when it joined the waiting set. -/
structure Request where
  owner : Owner
  kind : Access
  addr : Addr
  size : Nat
  mask : BitVec 64
  data : Line
  joined : Nat
  deriving DecidableEq, Repr

/-- An outstanding request: its identifier and its response timer in ticks (R146). -/
structure Outstanding where
  ident : BitVec 8
  request : Request
  timer : Nat
  deriving DecidableEq, Repr

/-- A withheld identifier and the ticks until it is freed (R146). -/
structure Withheld where
  ident : BitVec 8
  timer : Nat
  deriving DecidableEq, Repr

/-- The M port and the arbiter: the waiting set in the order of joining, the outstanding requests in
issue order, the withheld identifiers, and the model's age clock (R145, R146, R149). -/
structure MPort where
  waiting : List Request
  outstanding : List Outstanding
  withheld : List Withheld
  ageClock : Nat
  deriving DecidableEq, Repr

/-! ### The P port's answers (chapter 3) -/

/-- What an answer carries (R39). -/
inductive Reply where
  | okay
  | okayData (bytes : List Byte)
  | error
  deriving DecidableEq, Repr

/-- An answer returned to a requester (R39). -/
structure Answer where
  requester : BitVec 4
  tag : BitVec 6
  reply : Reply
  deriving DecidableEq, Repr

/-! ### Management port, mailbox and Event Queue (chapters 10 and 11) -/

/-- The I2C target: sampled ADDR pins (R155), index and byte pointer (R156). -/
structure I2c where
  addr1 : Bool
  addr0 : Bool
  index : Byte
  pointer : Nat
  deriving DecidableEq, Repr

/-- The Command Mailbox (R160): CMD, PARAM, the running command's copy of PARAM, RESULT. -/
structure Mailbox where
  cmd : Byte
  param : BitVec 128
  copy : BitVec 128
  result : BitVec 768
  deriving DecidableEq, Repr

/-- The event kinds (R170). -/
inductive EventKind where
  | commandDone
  | epochCommitted
  | checkpointDropped
  | journalFault
  | journalFull
  | captureFailed
  | writeRefused
  | memoryError
  | faultSeen
  | rollbackDone
  | rollbackFailed
  | verifyDone
  | gateReleased
  | epochLimit
  | eventsLost
  deriving DecidableEq, Repr

/-- An event (R170). -/
structure Event where
  seq : Nat
  kind : EventKind
  requester : BitVec 4
  epoch : Nat
  detail : BitVec 64
  count : Nat
  deriving DecidableEq, Repr

/-- The Event Queue, oldest first, with the next sequence number (R170, R171) and ALERT_MASK (R176). -/
structure Events where
  queue : List Event
  nextSeq : Nat
  alertMask : BitVec 16
  deriving DecidableEq, Repr

/-! ### The whole part -/

/-- The state of the TJ216. `ltt` lists the lines the LTT holds, strictly rising (log entry 13);
`captures` lists the Capture Buffer entries in use, oldest first; `waq` is oldest first; `answers` is
every answer returned to the requesters since the last reset, in order. `pending` is the queue of
commands, and `draws` counts the free values drawn. -/
structure State where
  resetPhase : ResetPhase
  epoch : EpochCtl
  journal : Journal
  regions : Regions
  gate : Gate
  policy : Policy
  waq : List WaqEntry
  ltt : List LineIndex
  captures : List CaptureEntry
  ops : OpCtl
  timer : EpochTimer
  engine : Option Walk
  recovery : LastRecovery
  scan : Option Scan
  inspect : Option Inspection
  mport : MPort
  answers : List Answer
  i2c : I2c
  mailbox : Mailbox
  events : Events
  faultLevel : Bool
  draws : Nat
  pending : List Instr
  deriving DecidableEq, Repr

/-- No automatic source. -/
def SealSources.empty : SealSources := ⟨false, false, false⟩

/-- The Last Recovery Record after power-on reset (R133). -/
def LastRecovery.cleared : LastRecovery :=
  { outcome := .none, trigger := .command, phase := .none, targetEpoch := 0, newEpoch := 0,
    toRestore := 0, restored := 0, failingPosition := 0, faults := 0 }

/-- The region tables after reset: no entry valid (R55). The mode, base and limit of these entries are
the model's choice (log entry 7). -/
def noRegions : Vector RegionEntry 8 := Vector.replicate 8 (.notValid .untracked 0 0)

/-- The machine right after power-on reset has ended: R18, R37, R55, R79, R80, R111, R112, R133,
R135, R154, R159, R168, R181. The ADDR pins and the first FAULT sample are inputs; here they are low
(log entry 2). -/
def State.reset : State where
  resetPhase := .running
  epoch := { mode := .passthrough, counter := 0, table := [] }
  journal :=
    { base := 0, capacity := 0, depth := 1, head := 0, written := 0, tail := 0, ended := [] }
  regions :=
    { active := noRegions, shadow := noRegions, activeUnmapped := .untracked,
      shadowUnmapped := .untracked }
  gate := { state := .pass, armed := none, timer := none }
  policy := { faultEnable := false, faultDepth := 0, fenceDelay := 0 }
  waq := []
  ltt := []
  captures := []
  ops := { slot := none, owed := .empty, abortPending := false }
  timer := { nextInterval := 0, extend := false, activeInterval := 0, countdown := .stopped }
  engine := none
  recovery := .cleared
  scan := none
  inspect := none
  mport := { waiting := [], outstanding := [], withheld := [], ageClock := 0 }
  answers := []
  i2c := { addr1 := false, addr0 := false, index := 0, pointer := 0 }
  mailbox := { cmd := 0, param := 0, copy := 0, result := 0 }
  events := { queue := [], nextSeq := 1, alertMask := 0xFFFF }
  faultLevel := false
  draws := 0
  pending := []

end Sys2Proof.Machine
end

