-- ==== Sys2Proof/Machine/Bytes.lean ====
section
/-! DEFINITION. Bytes, codes and record layout: little-endian fields, the CRC-16 of R24, the record
header of R23, the codes of R183. -/

namespace Sys2Proof.Machine

/-- Byte `k` of a block of bytes. -/
def byteAt {w : Nat} (x : BitVec w) (k : Nat) : Byte := x.extractLsb' (8 * k) 8

/-- The first `n` bytes of a block, byte 0 first. -/
def bytesOf {w : Nat} (n : Nat) (x : BitVec w) : List Byte := (List.range n).map (byteAt x)

/-- The block with byte `k` replaced; a byte past the block's last is ignored (R156). -/
def setByte {w : Nat} (x : BitVec w) (k : Nat) (b : Byte) : BitVec w :=
  (x &&& ~~~(BitVec.ofNat w 0xFF <<< (8 * k))) ||| ((b.setWidth w) <<< (8 * k))

/-- The block with its bytes from `k` on replaced by the staged bytes, as far as it reaches (R156). -/
def writeBytesFrom {w : Nat} (k : Nat) : BitVec w → List Byte → BitVec w
  | x, [] => x
  | x, b :: bs => writeBytesFrom (k + 1) (setByte x k b) bs

/-- The staged bytes of a write transaction, taken together (R156). -/
def writeBytes {w : Nat} (x : BitVec w) (bs : List Byte) : BitVec w := writeBytesFrom 0 x bs

/-- A field of `bytes` bytes holding `v` at byte offset `off` of a 96-byte register, little-endian. -/
def field (off bytes v : Nat) : BitVec 768 := BitVec.ofNat 768 (v % 2 ^ (8 * bytes)) <<< (8 * off)

/-- The value of `bytes` bytes of PARAM at byte offset `off`, little-endian (R165). -/
def paramField (p : BitVec 128) (off bytes : Nat) : Nat := (p.extractLsb' (8 * off) (8 * bytes)).toNat

/-! ### The check value (R24) -/

/-- The bits of a byte in the order they are fed, most significant first (R24). -/
def crcBits (b : Byte) : List Bool :=
  [b.getLsbD 7, b.getLsbD 6, b.getLsbD 5, b.getLsbD 4, b.getLsbD 3, b.getLsbD 2, b.getLsbD 1, b.getLsbD 0]

/-- The CRC register after a list of bits: polynomial x^16 + x^12 + x^5 + 1 (R24). -/
def crcFeed : BitVec 16 → List Bool → BitVec 16
  | r, [] => r
  | r, b :: bs =>
    if r.getLsbD 15 = b then crcFeed (r <<< 1) bs else crcFeed ((r <<< 1) ^^^ 0x1021#16) bs

/-- The CRC-16 of R24 over a list of bytes: initial value 0xFFFF, not reflected, nothing combined. -/
def crc16 (bs : List Byte) : BitVec 16 := crcFeed 0xFFFF#16 (bs.flatMap crcBits)

/-- The check value over the 64 image bytes and header bytes 0 to 13 (R24). -/
def checkValue (image : Line) (header : BitVec 128) : BitVec 16 :=
  crc16 (bytesOf 64 image ++ bytesOf 14 header)

/-! ### The record header (R23) -/

/-- The epoch field, header bytes 0 to 5. -/
def headerEpoch (h : BitVec 128) : Nat := (h.extractLsb' 0 48).toNat
/-- The line index field, header bytes 6 to 10. -/
def headerLine (h : BitVec 128) : BitVec 40 := h.extractLsb' 48 40
/-- The requester field, header byte 11. -/
def headerRequester (h : BitVec 128) : Byte := h.extractLsb' 88 8
/-- The flags field, header byte 12. -/
def headerFlags (h : BitVec 128) : Byte := h.extractLsb' 96 8
/-- The lap field, header byte 13. -/
def headerLap (h : BitVec 128) : Byte := h.extractLsb' 104 8
/-- The check field, header bytes 14 and 15. -/
def headerCheck (h : BitVec 128) : BitVec 16 := h.extractLsb' 112 16

/-- Header bytes 0 to 13 of a record (R23). -/
def headerFields (epoch position : Nat) (line : LineIndex) (requester : BitVec 4) (repeated : Bool) :
    BitVec 128 :=
  (BitVec.ofNat 48 epoch).setWidth 128 |||
  line.setWidth 128 <<< 48 |||
  requester.setWidth 128 <<< 88 |||
  (if repeated then 1#128 else 0#128) <<< 96 |||
  (BitVec.ofNat 8 position).setWidth 128 <<< 104

/-- The 16 meaningful bytes of a record's header (R23, R24). -/
def buildHeader (epoch position : Nat) (line : LineIndex) (requester : BitVec 4) (repeated : Bool)
    (image : Line) : BitVec 128 :=
  let h := headerFields epoch position line requester repeated
  h ||| (checkValue image h).setWidth 128 <<< 112

/-- The 16 meaningful bytes of a header line as read. -/
def lineHeader (l : Line) : BitVec 128 := l.extractLsb' 0 128

/-- A header as it is written: the meaningful bytes, then 48 bytes of zero (R23). -/
def headerLineOf (h : BitVec 128) : Line := h.setWidth 512

/-! ### The four tests of a record (R25) -/

/-- The flags are 0x00 or 0x01. -/
def flagsTest (h : BitVec 128) : Bool := headerFlags h == 0x00#8 || headerFlags h == 0x01#8
/-- The lap is the low 8 bits of the position. -/
def lapTest (p : Nat) (h : BitVec 128) : Bool := headerLap h == BitVec.ofNat 8 p
/-- The check value over the record read equals its check field. -/
def checkTest (image : Line) (h : BitVec 128) : Bool := checkValue image h == headerCheck h
/-- The epoch is that of the entry whose extent contains the position. -/
def epochTest (expected : Option Nat) (h : BitVec 128) : Bool := expected == some (headerEpoch h)

/-- A record at `p` passes all four tests (R25, R123, R137). -/
def recordPasses (p : Nat) (expected : Option Nat) (image : Line) (h : BitVec 128) : Bool :=
  flagsTest h && lapTest p h && checkTest image h && epochTest expected h

/-! ### Codes (R183, R166) -/

/-- Device mode. -/
def Mode.code : Mode → Nat
  | .passthrough => 0x00
  | .journaling => 0x01
  | .broken => 0x02

/-- Gate state. -/
def GateState.code : GateState → Nat
  | .pass => 0x00
  | .holdTracked => 0x01
  | .holdAll => 0x02
  | .fence => 0x03

/-- Operation. -/
def Operation.code : Operation → Nat
  | .seal => 0x01
  | .stop => 0x02
  | .rollback => 0x03
  | .verify => 0x04

/-- Operation phase. -/
def Phase.code : Phase → Nat
  | .gather => 0x01
  | .drain => 0x02
  | .restore => 0x03
  | .scan => 0x04

/-- Source and opened by. -/
def Source.code : Source → Nat
  | .start => 0x01
  | .timer => 0x02
  | .pressure => 0x03
  | .command => 0x04
  | .journalFault => 0x05
  | .rollback => 0x06
  | .fault => 0x07

/-- Entry state. -/
def EntryState.code : EntryState → Nat
  | .stillOpen => 0
  | .committed => 1

/-- Entry condition. -/
def Condition.code : Condition → Nat
  | .usable => 0
  | .damaged => 1
  | .lost => 2

/-- Region mode. -/
def LineMode.code : LineMode → Nat
  | .tracked => 0x01
  | .untracked => 0x02
  | .fenced => 0x03

/-- Unmapped mode, coded as a region mode (R164). -/
def Unmapped.code : Unmapped → Nat
  | .untracked => 0x02
  | .fenced => 0x03

/-- LRR outcome. -/
def RecoveryOutcome.code : RecoveryOutcome → Nat
  | .none => 0x00
  | .inProgress => 0x01
  | .completed => 0x02
  | .aborted => 0x03
  | .failedCheck => 0x04
  | .failedMemory => 0x05
  | .failedNoCheckpoint => 0x06
  | .interrupted => 0x07

/-- LRR trigger. -/
def Trigger.code : Trigger → Nat
  | .command => 0x00
  | .fault => 0x01

/-- LRR phase. -/
def RecoveryPhase.code : RecoveryPhase → Nat
  | .none => 0x00
  | .drain => 0x01
  | .restore => 0x02
  | .settle => 0x03

/-- Event kind (R170). -/
def EventKind.code : EventKind → Nat
  | .commandDone => 0x01
  | .epochCommitted => 0x02
  | .checkpointDropped => 0x03
  | .journalFault => 0x04
  | .journalFull => 0x05
  | .captureFailed => 0x06
  | .writeRefused => 0x07
  | .memoryError => 0x08
  | .faultSeen => 0x09
  | .rollbackDone => 0x0A
  | .rollbackFailed => 0x0B
  | .verifyDone => 0x0C
  | .gateReleased => 0x0D
  | .epochLimit => 0x0E
  | .eventsLost => 0x0F

/-- The coalesced kinds (R170, R172). -/
def EventKind.coalesced : EventKind → Bool
  | .journalFull => true
  | .captureFailed => true
  | .writeRefused => true
  | .memoryError => true
  | _ => false

/-- The result of a command (R166). -/
inductive CommandResult where
  | done
  | rejected
  | busy
  | aborted
  | preempted
  | failed
  deriving DecidableEq, Repr

/-- Result codes. -/
def CommandResult.code : CommandResult → Nat
  | .done => 0x01
  | .rejected => 0x02
  | .busy => 0x03
  | .aborted => 0x04
  | .preempted => 0x05
  | .failed => 0x06

/-- The reason of a REJECTED or FAILED result (R166); `none` is 0x00. -/
inductive Reason where
  | none
  | wrongMode
  | badParam
  | overlap
  | noSuchCheckpoint
  | checkpointDamaged
  | checkpointLost
  | epochLimit
  | targetLost
  | restoreFailed
  | gateBroken
  deriving DecidableEq, Repr

/-- Reason codes. -/
def Reason.code : Reason → Nat
  | .none => 0x00
  | .wrongMode => 0x01
  | .badParam => 0x02
  | .overlap => 0x03
  | .noSuchCheckpoint => 0x04
  | .checkpointDamaged => 0x05
  | .checkpointLost => 0x06
  | .epochLimit => 0x07
  | .targetLost => 0x08
  | .restoreFailed => 0x09
  | .gateBroken => 0x0A

/-- A truth value as a bit. -/
def bit (b : Bool) : Nat := if b then 1 else 0

end Sys2Proof.Machine
end

