-- ==== Sys2Proof/Machine/Operands.lean ====
section
/-! DEFINITION. What the operands of a command name: the line and bytes of a transaction (R38), the
mode of a line (R42), the ring slot of a position (R22), the entry whose extent holds a position (R5),
the parameters of the mailbox commands (R165). -/

namespace Sys2Proof

/-- The line index of a byte address (Conventions). -/
def lineOf (a : Addr) : LineIndex := a.extractLsb' 6 34

/-- The offset of a byte address inside its line. -/
def offsetOf (a : Addr) : Nat := (a.extractLsb' 0 6).toNat

/-- The byte address of a line. -/
def addrOfLine (l : LineIndex) : Addr := l.setWidth 40 <<< 6

/-- The line a transaction addresses (R38). -/
def Transaction.line (t : Transaction) : LineIndex := lineOf t.addr

namespace Machine

/-- The line of a WAQ entry. -/
def WaqEntry.line (e : WaqEntry) : LineIndex := e.txn.line

/-- The entry is of the transaction with this requester and tag. -/
def WaqEntry.keyIs (e : WaqEntry) (requester : BitVec 4) (tag : BitVec 6) : Bool :=
  e.txn.requester == requester && e.txn.tag == tag

/-- The addressed bytes of a read answered with a line's data (R152). -/
def addressedBytes (addr : Addr) (size : Nat) (data : Line) : List Byte :=
  (List.range size).map fun i => byteAt data (offsetOf addr + i)

/-! ### The Region Decoder (R42) -/

/-- A journal is configured (R19). -/
def Journal.configured (j : Journal) : Bool := j.capacity != 0

/-- The line lies in the journal area, `[base/64, base/64 + 2C)` (R42). -/
def Journal.areaHolds (j : Journal) (l : LineIndex) : Bool :=
  j.configured && j.base / 64 ≤ l.toNat && l.toNat < j.base / 64 + 2 * j.capacity

/-- The mode of a valid entry whose range contains the line. -/
def RegionEntry.covers? (l : LineIndex) : RegionEntry → Option LineMode
  | .notValid _ _ _ => none
  | .valid m b e => if b.toNat ≤ l.toNat && l.toNat ≤ e.toNat then some m else none

/-- The line mode an unmapped mode stands for. -/
def Unmapped.lineMode : Unmapped → LineMode
  | .untracked => .untracked
  | .fenced => .fenced

/-- The mode of a line against the active table (R42). -/
def State.decodeLine (s : State) (l : LineIndex) : LineMode :=
  if s.journal.areaHolds l then .fenced
  else
    match s.regions.active.toList.findSome? (RegionEntry.covers? l) with
    | some m => m
    | none => s.regions.activeUnmapped.lineMode

/-! ### Overlaps (R20, R44) -/

/-- Two inclusive ranges share a line. -/
def rangesOverlap (a b c d : Nat) : Bool := a ≤ d && c ≤ b

/-- The entry is valid and its range meets `[a, b]`. -/
def RegionEntry.meets (a b : Nat) : RegionEntry → Bool
  | .notValid _ _ _ => false
  | .valid _ base limit => rangesOverlap a b base.toNat limit.toNat

/-- Some valid entry of a table meets `[a, b]`. -/
def tableMeets (t : Vector RegionEntry 8) (a b : Nat) : Bool := t.toList.any (RegionEntry.meets a b)

/-! ### Positions (R22, R5) -/

/-- The byte address of the image line of a position's ring slot (R22). -/
def Journal.imageAddr (j : Journal) (p : Nat) : Addr :=
  BitVec.ofNat 40 (j.base + p % j.capacity * 128)

/-- The byte address of the header line of a position's ring slot (R22). -/
def Journal.headerAddr (j : Journal) (p : Nat) : Addr :=
  BitVec.ofNat 40 (j.base + p % j.capacity * 128 + 64)

/-- The entry of a table, oldest first, whose extent holds `p`; the newest extent ends at `head` (R5). -/
def extentHolder (head p : Nat) : List Checkpoint → Option Checkpoint
  | [] => none
  | [c] => if c.start ≤ p && p < head then some c else none
  | c :: d :: rest =>
    if c.start ≤ p && p < d.start then some c else extentHolder head p (d :: rest)

/-- The epoch a record at `p` must carry (R25). -/
def State.expectedEpoch (s : State) (p : Nat) : Option Nat :=
  (extentHolder s.journal.head p s.epoch.table).map (·.epoch)

/-- The newest entry of the Checkpoint Table: in JOURNALING the OPEN entry (R4). -/
def State.openEntry (s : State) : Option Checkpoint := s.epoch.table.getLast?

/-- The byte address a record's image is written back to (R122). -/
def restoreAddr (line : BitVec 40) : Addr :=
  if line.toNat < 2 ^ 34 then line <<< 6 else Config.wideLineAddress line

/-! ### Parameters (R165) -/

/-- A region mode code (R165). -/
def lineModeOf (code : Nat) : Option LineMode :=
  match code with
  | 0x01 => some .tracked
  | 0x02 => some .untracked
  | 0x03 => some .fenced
  | _ => none

/-- The modes of R41 by number, for a free choice among them. -/
def lineModeNumber : Fin 3 → LineMode
  | 0 => .tracked
  | 1 => .untracked
  | 2 => .fenced

/-- An unmapped mode code (R164). -/
def unmappedOf (code : Nat) : Option Unmapped :=
  match code with
  | 0x02 => some .untracked
  | 0x03 => some .fenced
  | _ => none

/-- Parameters of SET_JOURNAL. -/
structure JournalParams where
  base : Nat
  capacity : Nat
  depth : Nat
  deriving DecidableEq, Repr

/-- SET_JOURNAL: base in bytes 0 to 4, capacity in 8 to 11, depth in 12. -/
def journalParams (p : BitVec 128) : JournalParams :=
  { base := paramField p 0 5, capacity := paramField p 8 4, depth := paramField p 12 1 }

/-- Parameters of SET_REGION. -/
structure RegionParams where
  index : Nat
  valid : Bool
  mode : Nat
  base : Nat
  limit : Nat
  deriving DecidableEq, Repr

/-- SET_REGION: index in byte 0, valid flag in 1 (only 0x01 means valid), mode in 2, base in 3 to 7,
limit in 8 to 12. -/
def regionParams (p : BitVec 128) : RegionParams :=
  { index := paramField p 0 1, valid := paramField p 1 1 == 1, mode := paramField p 2 1,
    base := paramField p 3 5, limit := paramField p 8 5 }

/-- Parameters of SET_POLICY. -/
structure PolicyParams where
  unmapped : Nat
  faultEnable : Nat
  faultDepth : Nat
  fenceDelay : Nat
  deriving DecidableEq, Repr

/-- SET_POLICY: unmapped mode in byte 0, fault enable in 1, fault depth in 2, delay in 4 and 5. -/
def policyParams (p : BitVec 128) : PolicyParams :=
  { unmapped := paramField p 0 1, faultEnable := paramField p 1 1, faultDepth := paramField p 2 1,
    fenceDelay := paramField p 4 2 }

/-- ROLLBACK: target epoch in bytes 0 to 5. -/
def rollbackTarget (p : BitVec 128) : Nat := paramField p 0 6

/-- READ_RECORD: position in bytes 0 to 7. -/
def recordPosition (p : BitVec 128) : Nat := paramField p 0 8

end Machine

end Sys2Proof
end

