-- ==== Sys2Proof/Machine/Flags.lean ====
section
/-! DEFINITION. The conditions and flags the part examines: back-pressure (R40), well-formedness of a
transaction (R38), the gathered and drained conditions (R63), the ends of GATHER (R103) and DRAIN
(R117), journal pressure (R31), the release conditions (R52), the sets of seal sources (R90). -/

namespace Sys2Proof.Machine

/-- The P port accepts nothing now (R40). -/
def State.backPressure (s : State) : Bool :=
  s.gate.state == .holdAll ||
    (s.gate.state != .fence && Config.waqPlaces ≤ s.waq.length)

/-- The request belongs to a read that bypassed the WAQ, with this requester and tag. -/
def Request.bypassKeyIs (r : Request) (requester : BitVec 4) (tag : BitVec 6) : Bool :=
  r.owner == .bypass requester tag

/-- An unanswered transaction of the requester carries the tag (R38). -/
def State.tagInUse (s : State) (requester : BitVec 4) (tag : BitVec 6) : Bool :=
  s.waq.any (·.keyIs requester tag) ||
    s.mport.waiting.any (·.bypassKeyIs requester tag) ||
    s.mport.outstanding.any (·.request.bypassKeyIs requester tag)

/-- The transaction is well formed: it addresses 1 to 64 bytes, does not cross its line, and its tag
is free (R38). -/
def State.transactionFits (s : State) (t : Transaction) : Bool :=
  1 ≤ t.size && offsetOf t.addr + t.size ≤ 64 && !s.tagInUse t.requester t.tag

/-! ### GATHER and DRAIN -/

/-- Gathered: no entry accepted before the hold remains, PARKED entries not counted (R63). -/
def gathered (waq : List WaqEntry) : Bool :=
  waq.all fun e => !e.beforeHold || e.state == .parked

/-- Drained, with the lines of the PARKED entries seen so far (R63). -/
def drainedFrom (parked : List LineIndex) : List WaqEntry → Bool
  | [] => true
  | e :: es =>
    match e.state with
    | .parked => drainedFrom (e.line :: parked) es
    | .waiting => parked.contains e.line && drainedFrom parked es
    | _ => false

/-- Drained: the WAQ holds only PARKED entries and WAITING entries behind a PARKED entry of their own
chain (R63). -/
def drained (waq : List WaqEntry) : Bool := drainedFrom [] waq

/-- The three conditions that end GATHER (R103). -/
def State.gatherDone (s : State) : Bool :=
  gathered s.waq && s.captures.isEmpty && s.journal.written == s.journal.head

/-- The owner is a read that bypassed the WAQ. -/
def Owner.isBypass : Owner → Bool
  | .bypass _ _ => true
  | _ => false

/-- The four conditions that end DRAIN (R117). -/
def State.drainDone (s : State) : Bool :=
  drained s.waq && s.captures.isEmpty && s.journal.written == s.journal.head &&
    !s.mport.waiting.any (·.owner.isBypass) && !s.mport.outstanding.any (·.request.owner.isBypass)

/-! ### Journal pressure -/

/-- The occupancy (R21). -/
def Journal.occupancy (j : Journal) : Nat := j.head - j.tail

/-- Occupancy is at or above the high-water mark C - 64 (R31). -/
def Journal.atHighWater (j : Journal) : Bool := j.capacity ≤ j.occupancy + Config.reserve

/-- The next allocation is under pressure: `head + 1 - tail` is at or above the high-water mark (R31). -/
def Journal.underPressure (j : Journal) : Bool := j.capacity ≤ j.head + 1 - j.tail + Config.reserve

/-! ### The slot -/

/-- The slot holds a rollback. -/
def OpCtl.holdsRollback (o : OpCtl) : Bool :=
  match o.slot with
  | some sl => sl.operation == .rollback
  | none => false

/-- The slot holds a SEAL or STOP, which are in GATHER (R81). -/
def OpCtl.holdsGather (o : OpCtl) : Bool :=
  match o.slot with
  | some sl => sl.operation == .seal || sl.operation == .stop
  | none => false

/-- The conditions under which the gate goes from FENCE to PASS (R52). -/
def State.releaseDue (s : State) : Bool :=
  s.gate.state == .fence && s.gate.armed.isSome && !s.faultLevel && !s.ops.holdsRollback &&
    s.epoch.mode != .broken

/-! ### Sets of automatic seal sources -/

/-- The set with a source's member written; sources that are not automatic have no member (R90). -/
def SealSources.write (v : Bool) (f : SealSources) : Source → SealSources
  | .timer => { f with timer := v }
  | .pressure => { f with pressure := v }
  | .journalFault => { f with journalFault := v }
  | _ => f

/-- The set with a source entered. -/
def SealSources.add (f : SealSources) (src : Source) : SealSources := f.write true src

/-- The set with a source taken out. -/
def SealSources.remove (f : SealSources) (src : Source) : SealSources := f.write false src

/-- All members of two sets. -/
def SealSources.union (f g : SealSources) : SealSources :=
  ⟨f.timer || g.timer, f.pressure || g.pressure, f.journalFault || g.journalFault⟩

/-! ### The countdown (R97) -/

/-- A SEAL, STOP or ROLLBACK starts. -/
def Countdown.pause : Countdown → Countdown
  | .running n => .paused n
  | .paused n => .paused n
  | .stopped => .stopped

/-- Such an operation ends with the epoch still open. -/
def Countdown.resume : Countdown → Countdown
  | .running n => .running n
  | .paused n => .running n
  | .stopped => .stopped

/-- Loaded with an interval; 0 leaves it stopped (R96). -/
def Countdown.load (interval : Nat) : Countdown := if interval = 0 then .stopped else .running interval

/-- Counts saturate at the 16-bit count field (R170). -/
def count16 (n : Nat) : Nat := min n 65535

end Sys2Proof.Machine
end

