-- ==== Sys2Proof/Machine/Ops.lean ====
section
/-! DEFINITION. The shared operations of the data path and the Event Queue: reporting an event
(R170 to R173), answering a requester (R39), joining and leaving the M port's waiting set (R145), the
line chains and write decisions of the WAQ (R58 to R62), the grants of the Capture Buffer (R71), the
changes of the gate state (R48, R49, R52). -/

namespace Sys2Proof.Machine

/-! ### The Event Queue -/

/-- An event as a block produces it (R170). -/
structure Report where
  kind : EventKind
  requester : BitVec 4
  epoch : Nat
  detail : BitVec 64
  count : Nat
  deriving DecidableEq, Repr

/-- The sequence number after `n`: 65,535 is followed by 1 (R171). -/
def nextSeqAfter (n : Nat) : Nat := if n = 65535 then 1 else n + 1

/-- The queue with its newest event changed. -/
def modifyNewest (f : Event → Event) (q : List Event) : List Event :=
  match q.getLast? with
  | some e => q.dropLast ++ [f e]
  | none => q

/-- The event is appended and takes the next sequence number (R171). -/
def Events.append (q : Events) (r : Report) : Events :=
  { q with
    queue := q.queue ++ [⟨q.nextSeq, r.kind, r.requester, r.epoch, r.detail, r.count⟩]
    nextSeq := nextSeqAfter q.nextSeq }

/-- The newest event is not the head and satisfies `f`. -/
def Events.newestIs (q : Events) (f : Event → Bool) : Bool :=
  2 ≤ q.queue.length && q.queue.getLast?.any f

/-- The event is folded into the newest one (R172). -/
def Events.coalesces (q : Events) (r : Report) : Bool :=
  r.kind.coalesced && q.newestIs fun e => e.kind == r.kind && e.requester == r.requester

/-- The newest event counts one more occurrence (R172). -/
def Events.fold (q : Events) (r : Report) : Events :=
  { q with
    queue := modifyNewest (fun e => { e with count := count16 (e.count + 1), detail := r.detail }) q.queue }

/-- The event is lost: counted into the newest EVENTS_LOST, or an EVENTS_LOST is appended (R173). -/
def Events.lose (q : Events) (counter : Nat) (r : Report) : Events :=
  let code := BitVec.ofNat 8 r.kind.code
  if q.newestIs fun e => e.kind == .eventsLost then
    { q with
      queue := modifyNewest
        (fun e => { e with count := count16 (e.count + 1), detail := setByte e.detail 1 code }) q.queue }
  else
    q.append ⟨.eventsLost, 0, counter, setByte (setByte 0 0 code) 1 code, 1⟩

/-- The event is offered to the queue (R172, R173). -/
def Events.offer (q : Events) (counter : Nat) (r : Report) : Events :=
  if q.coalesces r then q.fold r
  else if q.queue.length < 31 then q.append r
  else q.lose counter r

/-- A block reports an event. -/
def State.report (s : State) (r : Report) : State :=
  { s with events := s.events.offer s.epoch.counter r }

/-- An event about a requester's line: its epoch is the epoch counter, its detail the line index, its
count 1 (R38, R43, R47, R49, R74, R75, R76, R152). -/
def State.reportLine (s : State) (kind : EventKind) (requester : BitVec 4) (line : LineIndex) : State :=
  s.report ⟨kind, requester, s.epoch.counter, line.setWidth 64, 1⟩

/-- The event that goes with a refusal: WRITE_REFUSED for a write, MEMORY_ERROR for a read (R38, R47,
R49). -/
def refusalKind : Access → EventKind
  | .write => .writeRefused
  | .read => .memoryError

/-! ### Answers and memory requests -/

/-- An answer is returned to the P port (R39). -/
def State.answer (s : State) (requester : BitVec 4) (tag : BitVec 6) (reply : Reply) : State :=
  { s with answers := s.answers ++ [⟨requester, tag, reply⟩] }

/-- The transaction is answered ERROR, and its refusal is reported. -/
def State.refuse (s : State) (t : Transaction) : State :=
  (s.answer t.requester t.tag .error).reportLine (refusalKind t.kind) t.requester t.line

/-- A request joins the waiting set (R145, R149). -/
def State.join (s : State) (owner : Owner) (kind : Access) (addr : Addr) (size : Nat) (mask : BitVec 64)
    (data : Line) : State :=
  { s with
    mport.waiting := s.mport.waiting ++ [⟨owner, kind, addr, size, mask, data, s.mport.ageClock⟩] }

/-- A 64-byte read of a whole line (R72, R122, R136). -/
def State.joinLineRead (s : State) (owner : Owner) (addr : Addr) : State := s.join owner .read addr 64 0 0

/-- A 64-byte write with every byte enabled (R28, R122). -/
def State.joinLineWrite (s : State) (owner : Owner) (addr : Addr) (data : Line) : State :=
  s.join owner .write addr 64 (BitVec.allOnes 64) data

/-- The FORWARD request of a transaction in the WAQ (R61). -/
def State.joinForward (s : State) (t : Transaction) : State :=
  match t.kind with
  | .write => s.join (.waq t.requester t.tag) .write t.addr t.size t.mask t.data
  | .read => s.join (.waq t.requester t.tag) .read t.addr t.size 0 0

/-- The waiting requests of an owner are withdrawn (R61). -/
def State.withdraw (s : State) (owner : Owner) : State :=
  { s with mport.waiting := s.mport.waiting.filter fun r => r.owner != owner }

/-- The owner no longer needs its request: an outstanding one stays and its answer will be discarded
(R153); one still waiting stays or leaves, which the manual leaves open. -/
def State.abandon (s : State) (owner : Owner) : State :=
  { s with
    mport.waiting :=
      if s.mport.waiting.any (fun r => r.owner == owner) then
        if Config.abandonedStaysWaiting then
          s.mport.waiting.map fun r => if r.owner = owner then { r with owner := .abandoned } else r
        else s.mport.waiting.filter fun r => r.owner != owner
      else s.mport.waiting
    mport.outstanding :=
      s.mport.outstanding.map fun o =>
        if o.request.owner = owner then { o with request.owner := .abandoned } else o }

/-! ### The WAQ -/

/-- The entry of a transaction. -/
def State.waqEntry (s : State) (requester : BitVec 4) (tag : BitVec 6) : Option WaqEntry :=
  s.waq.find? (·.keyIs requester tag)

/-- The entry of a transaction takes a state. -/
def State.setWaqState (s : State) (requester : BitVec 4) (tag : BitVec 6) (st : WaqState) : State :=
  { s with waq := s.waq.map fun e => if e.keyIs requester tag then { e with state := st } else e }

/-- The entry of a transaction leaves the WAQ. -/
def State.removeWaq (s : State) (requester : BitVec 4) (tag : BitVec 6) : State :=
  { s with waq := s.waq.filter fun e => !e.keyIs requester tag }

/-- The oldest WAITING entry whose earlier chain entries have all been issued (R58); `blocked` lists
the lines with an entry not yet issued among those passed. -/
def nextHead (blocked : List LineIndex) : List WaqEntry → Option WaqEntry
  | [] => none
  | e :: es =>
    if e.state = .waiting ∧ !blocked.contains e.line then some e
    else nextHead (if e.state = .issued then blocked else e.line :: blocked) es

/-- The LTT holds the line: a hit (R66). -/
def State.lttHit (s : State) (l : LineIndex) : Bool := s.ltt.contains l

/-- A READY entry, its FORWARD request waiting (R61). -/
def State.makeReady (s : State) (t : Transaction) : State :=
  (s.setWaqState t.requester t.tag .ready).joinForward t

/-- A write at the head of its chain is decided (R60). A miss leaves it in CAPTURE_WAIT; the grant of
a Capture Buffer entry is `grantCaptures`. -/
def State.decideWrite (s : State) (t : Transaction) : State :=
  match s.decodeLine t.line with
  | .fenced => (s.removeWaq t.requester t.tag).refuse t
  | .untracked => s.makeReady t
  | .tracked =>
    if s.epoch.mode = .journaling then
      if s.lttHit t.line then s.makeReady t
      else s.setWaqState t.requester t.tag .captureWait
    else s.makeReady t

/-- An entry that has become the head of its chain: a read is READY, a write is decided (R59, R60). -/
def State.settleHead (s : State) (e : WaqEntry) : State :=
  match e.txn.kind with
  | .read => s.makeReady e.txn
  | .write => s.decideWrite e.txn

/-- At most `n` entries that head their chains leave WAITING, the oldest in the WAQ first each time. That
order among chains is the model's choice (log entry 29). -/
def State.advanceBy : Nat → State → State
  | 0, s => s
  | n + 1, s =>
    match nextHead [] s.waq with
    | none => s
    | some e => State.advanceBy n (s.settleHead e)

/-- Every entry that heads its chain leaves WAITING (R58). -/
def State.advance (s : State) : State := s.advanceBy s.waq.length

/-! ### The Capture Buffer -/

/-- The oldest write in CAPTURE_WAIT (R71). -/
def State.oldestCaptureWait (s : State) : Option WaqEntry := s.waq.find? fun e => e.state == .captureWait

/-- A free entry is granted to a write, and its capture read is requested (R71, R72). -/
def State.grantCapture (s : State) (t : Transaction) : State :=
  let taken : State := { s with captures := s.captures ++ [⟨t.line, t.requester, t.tag, .reading⟩] }
  (taken.setWaqState t.requester t.tag .capturing).joinLineRead
    (.capture t.requester t.tag) (addrOfLine t.line)

/-- At most `n` grants. -/
def State.grantCapturesBy : Nat → State → State
  | 0, s => s
  | n + 1, s =>
    if s.captures.length < Config.captureEntries then
      match s.oldestCaptureWait with
      | none => s
      | some e => State.grantCapturesBy n (s.grantCapture e.txn)
    else s

/-- The free entries are granted to the writes in CAPTURE_WAIT, oldest first in WAQ order (R71). -/
def State.grantCaptures (s : State) : State := s.grantCapturesBy Config.captureEntries

/-- The end of a step that may have added memory requests: free Capture Buffer entries are granted,
and requests of a later step are younger. -/
def State.closeStep (s : State) : State :=
  { s.grantCaptures with mport.ageClock := s.grantCaptures.mport.ageClock + 1 }

/-! ### The gate -/

/-- The entries the fence removes (R49). -/
def fenceRemoves (e : WaqEntry) : Bool :=
  match e.state with
  | .capturing => false
  | .issued => false
  | .waiting => true
  | .parked => true
  | .captureWait => true
  | .ready => true

/-- The owner is a WAQ entry; while such a request waits, the entry is READY. -/
def Owner.isWaq : Owner → Bool
  | .waq _ _ => true
  | _ => false

/-- The removals of R49: undecided and unissued entries are refused in WAQ order, their waiting
requests withdrawn, CAPTURING entries marked for refusal. -/
def State.fenceRemovals (s : State) : State :=
  let kept : State := { s with
    waq := (s.waq.filter fun e => !fenceRemoves e).map fun e =>
      if e.state = .capturing then { e with marked := true } else e
    mport.waiting := s.mport.waiting.filter fun r => !r.owner.isWaq }
  (s.waq.filter fenceRemoves).foldl (fun s e => s.refuse e.txn) kept

/-- The gate goes to FENCE: from any other state with the removals of R49 and *release armed* cleared
(R51); from FENCE nothing is removed (R50). -/
def State.enterFence (s : State) : State :=
  if s.gate.state = .fence then s
  else { s with gate.state := .fence, gate.armed := none }.fenceRemovals

/-- The fence release timer is loaded with the policy delay and started; with a delay of 0 it does not
run (R53). -/
def State.startFenceTimer (s : State) : State :=
  { s with
    gate.timer :=
      if s.policy.fenceDelay = 0 then none else some (s.policy.fenceDelay * Config.ticksPerMs) }

/-- The gate goes to PASS from a hold, and every PARKED entry leaves PARKED (R48). -/
def State.openHold (s : State) : State :=
  let opened : State := { s with
    gate.state := .pass
    waq := s.waq.map fun e => if e.state = .parked then { e with state := .waiting } else e }
  opened.advance

/-- The detail code of GATE_RELEASED (R170). -/
def ReleaseCause.code : ReleaseCause → Nat
  | .command => 0x01
  | .timer => 0x02

/-- The event of a release (R52, R170). -/
def releasedReport (counter : Nat) (armed : Option ReleaseCause) : Report :=
  ⟨.gateReleased, 0, counter, BitVec.ofNat 64 (armed.elim 0 ReleaseCause.code), 1⟩

/-- The gate opens from FENCE. A SEAL or STOP in GATHER moves it on to HOLD_TRACKED in the same step
and records that it moved it (R50, R104). -/
def State.openFence (s : State) : State :=
  let opened : State := { s with
    gate :=
      { state := if s.ops.holdsGather then .holdTracked else .pass, armed := none, timer := none }
    ops.slot :=
      if s.ops.holdsGather then s.ops.slot.map fun sl => { sl with moved := true } else s.ops.slot }
  opened.report (releasedReport s.epoch.counter s.gate.armed)

/-- The Gate examines the release conditions (R52). -/
def State.examineRelease (s : State) : State := if s.releaseDue then s.openFence else s

/-- *release armed* is set by a release; set already, nothing changes (R51). -/
def State.armRelease (s : State) (cause : ReleaseCause) : State :=
  match s.gate.armed with
  | some _ => s
  | none => { s with gate.armed := some cause }

end Sys2Proof.Machine
end

