-- ==== Sys2Proof/Machine/Epochs.lean ====
section
/-! DEFINITION. The Operation Controller and the Epoch Controller: the completion of a command
(R161), the start, joining, preemption and abort of SEAL and STOP (R83 to R92, R102), the freeing of
the slot (R91), the epoch-open actions (R12), COMMIT (R13, R14, R105), the epoch limit (R15) and
DISCARD (R109). -/

namespace Sys2Proof.Machine

/-! ### Completion of a command -/

/-- RESULT bytes 0 to 3 (R161). -/
def resultHeader (res : CommandResult) (reason : Reason) (code : Byte) : BitVec 768 :=
  field 0 1 res.code ||| field 1 1 reason.code ||| field 2 1 code.toNat

/-- The COMMAND_DONE event (R161): command code, result code and reason code in detail bytes 0 to 2. -/
def doneReport (counter : Nat) (code : Byte) (res : CommandResult) (reason : Reason) : Report :=
  ⟨.commandDone, 0, counter,
    setByte (setByte (setByte 0 0 code) 1 (BitVec.ofNat 8 res.code)) 2 (BitVec.ofNat 8 reason.code), 1⟩

/-- The running command completes (R161). `data` holds the result data at its RESULT offsets. -/
def State.complete (s : State) (res : CommandResult) (reason : Reason) (data : BitVec 768) : State :=
  let done : State := { s with
    mailbox.result := resultHeader res reason s.mailbox.cmd ||| data
    mailbox.cmd := 0
    ops.abortPending := false }
  done.report (doneReport s.epoch.counter s.mailbox.cmd res reason)

/-- The mailbox's command completes if it belongs to the operation (R80). -/
def State.completeIf (s : State) (belongs : Bool) (res : CommandResult) (reason : Reason)
    (data : BitVec 768) : State :=
  if belongs then s.complete res reason data else s

/-- Result data of VERIFY (R167). -/
def scanData (sc : Scan) : BitVec 768 :=
  field 4 8 sc.scanStart ||| field 12 8 sc.scanEnd ||| field 20 8 sc.position ||| field 28 8 sc.checked |||
    field 36 8 sc.skipped ||| field 44 8 sc.bad ||| field 52 8 sc.unreadable ||| field 60 8 sc.firstBad

/-- VERIFY ends before its scan end: the reads are abandoned and its command completes (R141). -/
def State.stopScan (s : State) (res : CommandResult) : State :=
  match s.scan with
  | none => s
  | some sc =>
    let stopped : State := { (s.abandon .verifyImage).abandon .verifyHeader with scan := none }
    stopped.complete res .none (scanData sc)

/-! ### SEAL and STOP in the slot -/

/-- A SEAL or STOP starts (R102, R107): slot, gate (R50), the WAQ's hold step (R63), countdown (R97),
owed flag of the source. -/
def State.startGather (s : State) (op : Operation) (src : Source) (joined : SealSources)
    (command : Bool) : State :=
  { s with
    ops.slot := some
      { operation := op, source := src, phase := .gather, joined := joined, command := command,
        moved := s.gate.state == .pass }
    ops.owed := s.ops.owed.remove src
    gate.state := if s.gate.state = .pass then .holdTracked else s.gate.state
    waq := s.waq.map fun e => { e with beforeHold := true }
    timer.countdown := s.timer.countdown.pause }

/-- An automatic request joins the running seal (R87). -/
def State.joinSeal (s : State) (src : Source) : State :=
  { s with
    ops.slot := s.ops.slot.map fun sl => { sl with joined := sl.joined.add src }
    ops.owed := s.ops.owed.remove src }

/-- An automatic seal request (R83, R85). Its sources act in JOURNALING alone (R90). -/
def State.requestSeal (s : State) (src : Source) : State :=
  if s.epoch.mode = .journaling then
    match s.ops.slot with
    | none => s.startGather .seal src .empty false
    | some sl =>
      match sl.operation with
      | .seal => s.joinSeal src
      | .stop => { s with ops.owed := s.ops.owed.add src }
      | .rollback => { s with ops.owed := s.ops.owed.add src }
      | .verify => (s.stopScan .preempted).startGather .seal src .empty false
  else s

/-- The owed flags that qualify when the slot frees (R91). -/
def State.qualifying (s : State) : SealSources :=
  { timer := s.ops.owed.timer && !s.timer.extend
    pressure := s.ops.owed.pressure && s.journal.atHighWater
    journalFault := s.ops.owed.journalFault }

/-- The source of the seal that the qualifying flags start (R91). -/
def SealSources.first (q : SealSources) : Option Source :=
  if q.journalFault then some .journalFault
  else if q.pressure then some .pressure
  else if q.timer then some .timer
  else none

/-- The slot frees; in JOURNALING the owed flags are examined and a qualifying seal starts (R91). -/
def State.freeSlot (s : State) : State :=
  let idle : State := { s with ops.slot := none }
  if s.epoch.mode = .journaling then
    let q := s.qualifying
    let examined : State := { idle with
      ops.owed := { timer := s.ops.owed.timer && !q.timer, pressure := false, journalFault := false } }
    match q.first with
    | none => examined
    | some src => examined.startGather .seal src (q.remove src) false
  else idle

/-- A SEAL or STOP that moved the gate gives it back and releases the parked writes (R50, R48). -/
def State.endHold (s : State) (sl : Slot) : State :=
  if sl.moved ∧ s.gate.state = .holdTracked then s.openHold else s

/-- Result data that is the epoch counter (R167). -/
def counterData (counter : Nat) : BitVec 768 := field 4 6 counter

/-- ABORT honoured in GATHER (R92, R106, R110). -/
def State.abortGather (s : State) (sl : Slot) : State :=
  let held := s.endHold sl
  let resumed : State := { held with
    timer.countdown := held.timer.countdown.resume
    ops.owed := held.ops.owed.union sl.joined }
  (resumed.completeIf sl.command .aborted .none (counterData s.epoch.counter)).freeSlot

/-- A SEAL or STOP in GATHER is abandoned for a rollback, which takes the slot and the gate next (R88,
R106, R110). -/
def State.preemptGather (s : State) (sl : Slot) : State :=
  let owing : State := { s with
    ops.owed := (s.ops.owed.union sl.joined).add sl.source
    ops.slot := none }
  owing.completeIf sl.command .preempted .none (counterData s.epoch.counter)

/-! ### Epoch open -/

/-- A write that is READY or CAPTURE_WAIT: decided and not yet issued (R12). -/
def WaqEntry.undecides (e : WaqEntry) : Bool :=
  e.txn.kind == .write && (e.state == .ready || e.state == .captureWait)

/-- The owner is the entry. -/
def WaqEntry.owns (e : WaqEntry) (r : Request) : Bool := r.owner == .waq e.txn.requester e.txn.tag

/-- The undecided writes return to the decision, their requests withdrawn (R62). -/
def State.redecide (s : State) : State :=
  let back : State := { s with
    waq := s.waq.map fun e => if e.undecides then { e with state := .waiting } else e
    mport.waiting := s.mport.waiting.filter fun r => !s.waq.any fun e => e.undecides && e.owns r }
  back.advance

/-- The shadow table and unmapped mode are copied to the active ones (R45). -/
def State.copyRegions (s : State) : State :=
  { s with
    regions.active := s.regions.shadow
    regions.activeUnmapped := s.regions.shadowUnmapped }

/-- The active interval is loaded and the countdown started (R96). -/
def State.loadTimer (s : State) : State :=
  { s with
    timer.activeInterval := s.timer.nextInterval
    timer.countdown := Countdown.load s.timer.nextInterval }

/-- The epoch-open actions (R12). -/
def State.epochOpen (s : State) : State :=
  State.redecide (State.loadTimer (State.copyRegions { s with ltt := [] }))

/-! ### The ends of GATHER -/

/-- A table with its newest entry changed. -/
def modifyOpen (f : Checkpoint → Checkpoint) (t : List Checkpoint) : List Checkpoint :=
  match t.getLast? with
  | some c => t.dropLast ++ [f c]
  | none => t

/-- A new OPEN entry (R4, R7, R9). -/
def newEntry (epoch start : Nat) (src : Source) : Checkpoint :=
  { epoch := epoch, start := start, state := .stillOpen, condition := .usable, openedBy := src,
    repeats := 0 }

/-- The Checkpoint Table of a commit (R13, steps 1 to 4). -/
def commitTable (depth epoch head : Nat) (src : Source) (t : List Checkpoint) : List Checkpoint :=
  let grown := ((modifyOpen (fun c => { c with state := .committed }) t).filter
    fun c => c.condition != .lost) ++ [newEntry epoch head src]
  grown.drop (grown.length - depth)

/-- The start of the oldest entry, or `head` of an empty table. -/
def oldestStart (head : Nat) (t : List Checkpoint) : Nat := (t.head?.map (·.start)).getD head

/-- The entry that a commit closes. -/
def State.closing (s : State) : Checkpoint :=
  s.openEntry.getD (newEntry s.epoch.counter s.journal.head .start)

/-- COMMIT (R13, R14, R105). -/
def State.commit (s : State) (sl : Slot) : State :=
  let c := s.closing
  let table := commitTable s.journal.depth (s.epoch.counter + 1) s.journal.head sl.source s.epoch.table
  let changed : State := { s with
    epoch.table := table
    epoch.counter := s.epoch.counter + 1
    journal.tail := oldestStart s.journal.head table
    ops.owed := .empty }
  let reported := changed.report
    ⟨.epochCommitted, 0, c.epoch, BitVec.ofNat 64 (s.journal.head - c.start), count16 c.repeats⟩
  let released := reported.epochOpen.endHold sl
  let freed : State := { released with ops.slot := none }
  freed.completeIf sl.command .done .none (field 4 6 c.epoch ||| field 12 6 (s.epoch.counter + 1))

/-- The epoch-limit ending of a seal (R15, R106). -/
def State.limitEnd (s : State) (sl : Slot) : State :=
  let reported := s.report
    ⟨.epochLimit, 0, s.epoch.counter, BitVec.ofNat 64 s.epoch.counter, 1⟩
  let completed := reported.completeIf sl.command .rejected .epochLimit (counterData s.epoch.counter)
  let released := completed.endHold sl
  { released with
    ops.owed := .empty
    ops.slot := none
    timer.countdown := .stopped }

/-- DISCARD (R109, R17). -/
def State.discard (s : State) (sl : Slot) : State :=
  let emptied : State := { s with
    epoch := { mode := .passthrough, counter := 0, table := [] }
    journal.head := 0
    journal.written := 0
    journal.tail := 0
    journal.ended := []
    ltt := []
    ops.owed := .empty
    timer.countdown := .stopped }
  let released := emptied.copyRegions.endHold sl
  let freed : State := { released with ops.slot := none }
  freed.completeIf sl.command .done .none
    (field 4 6 s.epoch.counter ||| field 12 8 s.journal.head)

end Sys2Proof.Machine
end

