-- ==== Sys2Proof/Machine/Rollback.lean ====
section
/-! DEFINITION. The Rollback Engine (chapter 7): target choice (R114), start (R116), failure and abort
in DRAIN (R119, R120), the restore walk (R121 to R124), SETTLE (R127, R128), entry into BROKEN
(R129), and the reads of a record that it shares with the Journal Checker (R136, R142). -/

namespace Sys2Proof.Machine

/-! ### The two reads of a record -/

/-- A read of a record's line is answered or times out: three attempts (R124, R136). -/
def ReadSlot.onAnswer (r : ReadSlot) (a : MemAnswer) : ReadSlot :=
  match r, a with
  | .asking _, .okay d => .got d
  | .asking n, .error => if n < Config.attempts then .asking (n + 1) else .failed
  | r, _ => r

/-- The read is asked for and has not ended. -/
def ReadSlot.isAsking : ReadSlot → Bool
  | .asking _ => true
  | _ => false

/-- The two reads of a record are asked for the first time. -/
def ReadPair.first : ReadPair := ⟨.asking 1, .asking 1⟩

/-- Both reads have ended, OKAY or after three attempts (R136). -/
def ReadPair.ended (p : ReadPair) : Bool := !p.image.isAsking && !p.header.isAsking

/-- One line of the pair takes an answer. -/
def ReadPair.onAnswer (p : ReadPair) (line : RecordLine) (a : MemAnswer) : ReadPair :=
  match line with
  | .image => { p with image := p.image.onAnswer a }
  | .header => { p with header := p.header.onAnswer a }

/-- The read of one line. -/
def ReadPair.slot (p : ReadPair) : RecordLine → ReadSlot
  | .image => p.image
  | .header => p.header

/-- The byte address of one line of the record at a position (R22). -/
def Journal.lineAddr (j : Journal) (p : Nat) : RecordLine → Addr
  | .image => j.imageAddr p
  | .header => j.headerAddr p

/-- The image and header reads of the record at `p` are requested, in the SERVICE class (R122, R136,
R142). -/
def State.joinRecordReads (s : State) (image header : Owner) (p : Nat) : State :=
  (s.joinLineRead image (s.journal.imageAddr p)).joinLineRead header (s.journal.headerAddr p)

/-! ### Target and start -/

/-- The target of a fault rollback: the candidate at the fault depth, or the oldest USABLE entry newer
than it (R114); at the epoch limit there is none (R16). -/
def faultTarget (counter depth : Nat) (t : List Checkpoint) : Option Checkpoint :=
  if counter = Config.epochLimit then none
  else (t.drop (t.length - 1 - depth)).find? fun c => c.condition == .usable

/-- Result data of ROLLBACK (R167). -/
def recoveryData (r : LastRecovery) : BitVec 768 :=
  field 4 6 r.targetEpoch ||| field 12 6 r.newEpoch ||| field 20 8 r.restored ||| field 28 8 r.failingPosition

/-- The Last Recovery Record at a rollback's start (R116). -/
def LastRecovery.started (trigger : Trigger) (target : Nat) : LastRecovery :=
  { LastRecovery.cleared with
    outcome := .inProgress, trigger := trigger, phase := .drain, targetEpoch := target }

/-- The slot, engine, countdown and record of a rollback that starts (R116). -/
def State.enterDrain (s : State) (src : Source) (trigger : Trigger) (target : Checkpoint)
    (command moved : Bool) : State :=
  { s with
    ops.slot := some
      { operation := .rollback, source := src, phase := .drain, joined := .empty, command := command,
        moved := moved }
    engine := some
      { targetEpoch := target.epoch, targetStart := target.start, walk := none,
        current := ⟨.idle, .idle⟩, writeAttempt := 0 }
    timer.countdown := s.timer.countdown.pause
    recovery := .started trigger target.epoch }

/-- The gate states a command rollback moves to HOLD_ALL (R50). -/
def GateState.holdable : GateState → Bool
  | .pass => true
  | .holdTracked => true
  | .holdAll => false
  | .fence => false

/-- A command rollback starts (R116, R50). -/
def State.startCommandRollback (s : State) (target : Checkpoint) : State :=
  let moved := s.gate.state.holdable
  let started := s.enterDrain .command .command target true moved
  if moved then { started with gate.state := .holdAll } else started

/-- A fault rollback starts: the gate goes to FENCE and the fence release timer stops (R116, R53). -/
def State.startFaultRollback (s : State) (target : Checkpoint) : State :=
  let fenced := (s.enterDrain .fault .fault target false false).enterFence
  { fenced with gate.timer := none }

/-! ### Endings -/

/-- The gate at the end of a rollback that has not failed its walk (R50, R51, R53). -/
def State.endRollbackGate (s : State) (sl : Slot) : State :=
  if sl.source = .fault then { s with gate.armed := none }.startFenceTimer
  else if sl.moved ∧ s.gate.state = .holdAll then s.openHold
  else s

/-- The rollback leaves the slot: R91, and the release conditions are examined (R52). -/
def State.leaveRollback (s : State) : State :=
  { s with engine := none }.freeSlot.examineRelease

/-- The target is marked LOST or dropped during DRAIN (R119). -/
def State.failDrain (s : State) (sl : Slot) (w : Walk) : State :=
  let gated := s.endRollbackGate sl
  let resumed : State := { gated with timer.countdown := gated.timer.countdown.resume }
  let reported := resumed.report ⟨.rollbackFailed, 0, w.targetEpoch, 0, 3⟩
  let recorded : State := { reported with
    recovery.outcome := .failedNoCheckpoint
    recovery.phase := .drain }
  (recorded.completeIf sl.command .failed .targetLost (recoveryData recorded.recovery)).leaveRollback

/-- ABORT honoured in a command rollback's DRAIN (R120). -/
def State.abortDrain (s : State) (sl : Slot) : State :=
  let gated := s.endRollbackGate sl
  let recorded : State := { gated with
    timer.countdown := gated.timer.countdown.resume
    recovery.outcome := .aborted
    recovery.phase := .drain }
  (recorded.completeIf sl.command .aborted .none (recoveryData recorded.recovery)).leaveRollback

/-- The target is still in the table and not LOST. -/
def targetHolds (target : Nat) (t : List Checkpoint) : Bool :=
  t.any fun c => c.epoch == target && c.condition != .lost

/-- A rollback in DRAIN whose target is gone or LOST fails (R118, R119). -/
def State.checkTarget (s : State) : State :=
  match s.ops.slot, s.engine with
  | some sl, some w =>
    if sl.operation = .rollback ∧ sl.phase = .drain ∧ targetHolds w.targetEpoch s.epoch.table = false then
      s.failDrain sl w
    else s
  | _, _ => s

/-! ### SETTLE and BROKEN -/

/-- The Checkpoint Table of a settle (R127, steps 1 and 2). -/
def settleTable (target epoch start : Nat) (t : List Checkpoint) : List Checkpoint :=
  t.takeWhile (fun c => c.epoch != target) ++ [newEntry epoch start .rollback]

/-- SETTLE (R127, R128). -/
def State.settle (s : State) (sl : Slot) (w : Walk) : State :=
  let epoch := s.epoch.counter + 1
  let rebuilt : State := { s with
    epoch.table := settleTable w.targetEpoch epoch w.targetStart s.epoch.table
    epoch.counter := epoch
    journal.head := w.targetStart
    journal.written := w.targetStart }
  let opened := rebuilt.epochOpen
  let gated := State.endRollbackGate { opened with ops.owed.timer := false } sl
  let reported := gated.report
    ⟨.rollbackDone, 0, epoch, BitVec.ofNat 64 w.targetEpoch, count16 gated.recovery.restored⟩
  let recorded : State := { reported with
    recovery.outcome := .completed
    recovery.phase := .settle
    recovery.newEpoch := epoch }
  (recorded.completeIf sl.command .done .none (recoveryData recorded.recovery)).leaveRollback

/-- Why a walk failed (R129). -/
inductive WalkFailure where
  | check
  | memory
  deriving DecidableEq, Repr

/-- The Last Recovery Record's outcome of a failed walk (R129). -/
def WalkFailure.outcome : WalkFailure → RecoveryOutcome
  | .check => .failedCheck
  | .memory => .failedMemory

/-- The count of ROLLBACK_FAILED for a failed walk (R129). -/
def WalkFailure.code : WalkFailure → Nat
  | .check => 1
  | .memory => 2

/-- Entry into BROKEN at the walk position `p` (R129). -/
def State.enterBroken (s : State) (sl : Slot) (w : Walk) (p : Nat) (why : WalkFailure) : State :=
  let fenced := State.enterFence { s with epoch.mode := .broken }
  let emptied : State := { fenced with
    gate.armed := none
    gate.timer := none
    epoch.table := []
    epoch.counter := 0
    ltt := []
    ops.owed := .empty
    timer.countdown := .stopped }
  let reported := emptied.report ⟨.rollbackFailed, 0, w.targetEpoch, BitVec.ofNat 64 p, why.code⟩
  let recorded : State := { reported with
    recovery.outcome := why.outcome
    recovery.phase := .restore
    recovery.failingPosition := p
    engine := none
    ops.slot := none }
  recorded.completeIf sl.command .failed .restoreFailed (recoveryData recorded.recovery)

/-! ### The walk -/

/-- The record at the walk position `p` is begun: its two reads are requested (R122). -/
def State.beginRecord (s : State) (w : Walk) (p : Nat) : State :=
  { s with engine := some { w with walk := some p, current := .first, writeAttempt := 0 } }.joinRecordReads
    .restoreImage .restoreHeader p

/-- RESTORE begins (R121). -/
def State.beginRestore (s : State) (w : Walk) : State :=
  let entered : State := { s with
    ops.slot := s.ops.slot.map fun sl => { sl with phase := .restore }
    recovery.phase := .restore
    recovery.toRestore := s.journal.head - w.targetStart }
  entered.beginRecord w (s.journal.head - 1)

/-- The image is written back, in the `n`th attempt (R122, R124). -/
def State.writeBack (s : State) (w : Walk) (image header : Line) (n : Nat) : State :=
  { s with engine := some { w with writeAttempt := n } }.joinLineWrite .restoreWrite
    (restoreAddr (headerLine (lineHeader header))) image

/-- Both reads have been answered OKAY: the record is checked (R123). -/
def State.checkRecord (s : State) (sl : Slot) (w : Walk) (p : Nat) (image header : Line) : State :=
  if recordPasses p (s.expectedEpoch p) image (lineHeader header) then s.writeBack w image header 1
  else s.enterBroken sl w p .check

/-- The owner of a restore read. -/
def restoreOwner : RecordLine → Owner
  | .image => .restoreImage
  | .header => .restoreHeader

/-- The other line of a record. -/
def RecordLine.other : RecordLine → RecordLine
  | .image => .header
  | .header => .image

/-- A restore read is answered or times out (R122, R124). -/
def State.restoreRead (s : State) (line : RecordLine) (a : MemAnswer) : State :=
  match s.ops.slot, s.engine with
  | some sl, some w =>
    match w.walk with
    | none => s
    | some p =>
      let w' := { w with current := w.current.onAnswer line a }
      let s' : State := { s with engine := some w' }
      match w'.current.slot line with
      | .asking _ => s'.joinLineRead (restoreOwner line) (s.journal.lineAddr p line)
      | .failed => (s'.abandon (restoreOwner line.other)).enterBroken sl w' p .memory
      | _ =>
        match w'.current.image, w'.current.header with
        | .got image, .got header => s'.checkRecord sl w' p image header
        | _, _ => s'
  | _, _ => s

/-- The write back is answered OKAY: the walk moves on or SETTLE follows (R122). -/
def State.restored (s : State) (sl : Slot) (w : Walk) (p : Nat) : State :=
  let counted : State := { s with recovery.restored := s.recovery.restored + 1 }
  if p = w.targetStart then counted.settle sl w else counted.beginRecord w (p - 1)

/-- A restore write is answered or times out (R122, R124). -/
def State.restoreWritten (s : State) (a : MemAnswer) : State :=
  match s.ops.slot, s.engine with
  | some sl, some w =>
    match w.walk, w.current.image, w.current.header with
    | some p, .got image, .got header =>
      match a with
      | .okay _ => s.restored sl w p
      | .error =>
        if w.writeAttempt < Config.attempts then s.writeBack w image header (w.writeAttempt + 1)
        else s.enterBroken sl w p .memory
    | _, _, _ => s
  | _, _ => s

end Sys2Proof.Machine
end

