-- ==== Sys2Proof/Machine/Journal.lean ====
section
/-! DEFINITION. The Journal Writer and the captures (chapters 2 and 4): the LTT insert (R67),
allocation (R26) with its pressure actions (R31, R32, R33), the writing of records (R28 to R30),
journal faults (R35), and what an answer to a capture read does (R73 to R76). -/

namespace Sys2Proof.Machine

/-! ### The LTT -/

/-- The set of a line: the low 10 bits of its index (R65). -/
def lttSet (l : LineIndex) : BitVec 10 := l.extractLsb' 0 10

/-- All four ways of the line's set are taken (R67). -/
def lttFull (ltt : List LineIndex) (l : LineIndex) : Bool :=
  Config.lttWays ≤ ltt.countP fun x => lttSet x == lttSet l

/-- A line is entered in a strictly rising list. -/
def insertLine (l : LineIndex) : List LineIndex → List LineIndex
  | [] => [l]
  | x :: xs => if l < x then l :: x :: xs else if l = x then x :: xs else x :: insertLine l xs

/-! ### Capture Buffer entries -/

/-- The entry is READING for this write. -/
def CaptureEntry.reads (c : CaptureEntry) (requester : BitVec 4) (tag : BitVec 6) : Bool :=
  c.requester == requester && c.tag == tag && c.state == .reading

/-- The record an entry holds. -/
def CaptureState.record? : CaptureState → Option Record
  | .reading => none
  | .staged r => some r
  | .writing r _ _ => some r

/-- The entry holds the record of position `p`. -/
def CaptureEntry.holds (c : CaptureEntry) (p : Nat) : Bool :=
  match c.state.record? with
  | some r => r.position == p
  | none => false

/-- The entry of a capture read is freed, and granted again (R70, R71). -/
def State.freeReading (s : State) (requester : BitVec 4) (tag : BitVec 6) : State :=
  State.grantCaptures { s with captures := s.captures.filter fun c => !c.reads requester tag }

/-- The causing write is answered ERROR and leaves the WAQ, its capture's entry is freed, and the next
entry of its chain is decided (R74, R75, R76). `kind` is the event queued. -/
def State.endCapture (s : State) (t : Transaction) (kind : EventKind) : State :=
  let answered := (s.removeWaq t.requester t.tag).answer t.requester t.tag .error
  ((answered.reportLine kind t.requester t.line).freeReading t.requester t.tag).advance

/-! ### Writing records -/

/-- A line write of the record is requested, in its `n`th attempt (R28, R29). -/
def State.writeLine (s : State) (r : Record) (line : RecordLine) (n : Nat) : State :=
  let held : State := { s with
    captures := s.captures.map fun c => if c.holds r.position then { c with state := .writing r line n } else c }
  match line with
  | .image => held.joinLineWrite (.journalImage r.position) (s.journal.imageAddr r.position) r.image
  | .header =>
    held.joinLineWrite (.journalHeader r.position) (s.journal.headerAddr r.position) (headerLineOf r.header)

/-- A position is entered in a strictly rising list. -/
def insertPosition (p : Nat) : List Nat → List Nat
  | [] => [p]
  | x :: xs => if p < x then p :: x :: xs else if p = x then x :: xs else x :: insertPosition p xs

/-- Written advances over at most `n` ended positions; those passed leave the marks (R30). -/
def passEnded : Nat → Nat → List Nat → Nat × List Nat
  | 0, w, ended => (w, ended)
  | n + 1, w, ended =>
    if ended.contains w then passEnded n (w + 1) (ended.filter fun p => p != w) else (w, ended)

/-- The record of `p` ends its writing: it is marked ended, its entry is freed, and written advances
over the ended records (R30). -/
def State.endRecord (s : State) (p : Nat) : State :=
  let marks := insertPosition p s.journal.ended
  let passed := passEnded marks.length s.journal.written marks
  State.grantCaptures { s with
    captures := s.captures.filter fun c => !c.holds p
    journal.written := passed.1
    journal.ended := passed.2 }

/-! ### Journal fault -/

/-- Every entry is marked LOST (R7). -/
def markLost (t : List Checkpoint) : List Checkpoint := t.map fun c => { c with condition := .lost }

/-- The count of JOURNAL_FAULT (R35). -/
def RecordLine.faultCount : RecordLine → Nat
  | .image => 1
  | .header => 2

/-- A journal fault is declared for the record an entry holds (R35, R36). -/
def State.journalFault (s : State) (requester : BitVec 4) (r : Record) (line : RecordLine) : State :=
  let lost : State := { s with epoch.table := markLost s.epoch.table }
  let reported := lost.report
    ⟨.journalFault, requester, headerEpoch r.header, BitVec.ofNat 64 r.position, line.faultCount⟩
  ((reported.endRecord r.position).requestSeal .journalFault).checkTarget

/-- A record's line write is answered or times out (R28, R29). -/
def State.recordWritten (s : State) (p : Nat) (line : RecordLine) (a : MemAnswer) : State :=
  match s.captures.find? (·.holds p) with
  | none => s
  | some c =>
    match c.state with
    | .writing r _ n =>
      match a, line with
      | .okay _, .image => s.writeLine r .header 1
      | .okay _, .header => s.endRecord p
      | .error, _ =>
        if n < Config.attempts then s.writeLine r line (n + 1) else s.journalFault c.requester r line
    | _ => s

/-! ### Allocation -/

/-- The oldest entry is dropped (R32). The OPEN entry, which is the last, is never dropped. -/
def State.dropOldest (s : State) (requester : BitVec 4) : State :=
  match s.epoch.table with
  | c :: d :: rest =>
    State.report
      { s with
        epoch.table := d :: rest
        journal.tail := d.start }
      ⟨.checkpointDropped, requester, c.epoch, BitVec.ofNat 64 d.start, count16 (d.start - c.start)⟩
  | _ => s

/-- The oldest entry is COMMITTED and another entry follows it. -/
def canDrop : List Checkpoint → Bool
  | c :: _ :: _ => c.state == .committed
  | _ => false

/-- At most `n` drops while the allocation is under pressure (R31, step 1). -/
def State.relieveBy (requester : BitVec 4) : Nat → State → State
  | 0, s => s
  | n + 1, s =>
    if s.journal.underPressure ∧ canDrop s.epoch.table then
      State.relieveBy requester n (s.dropOldest requester)
    else s

/-- The pressure drops of an allocation (R31, step 1). -/
def State.relieve (s : State) (requester : BitVec 4) : State :=
  s.relieveBy requester s.epoch.table.length

/-- One more REPEAT record in the OPEN entry, saturating (R9). -/
def countRepeat (t : List Checkpoint) : List Checkpoint :=
  modifyOpen (fun c => { c with repeats := min (c.repeats + 1) (2 ^ 32 - 1) }) t

/-- The record of an allocation at `head` (R23, R26). -/
def State.newRecord (s : State) (t : Transaction) (image : Line) : Record :=
  let repeated := lttFull s.ltt t.line
  { position := s.journal.head, image := image, repeated := repeated,
    header := buildHeader s.epoch.counter s.journal.head t.line t.requester repeated image }

/-- The allocation is made: position, record, LTT insert or REPEAT (R26, R67), the write READY (R73),
and the record's image write requested (R28). -/
def State.place (s : State) (t : Transaction) (image : Line) : State :=
  let r := s.newRecord t image
  let placed : State := { s with
    journal.head := s.journal.head + 1
    epoch.table := if r.repeated then countRepeat s.epoch.table else s.epoch.table
    ltt := if r.repeated then s.ltt else insertLine t.line s.ltt
    captures := s.captures.map fun c =>
      if c.reads t.requester t.tag then { c with state := .staged r } else c }
  (placed.makeReady t).writeLine r .image 1

/-- The allocation for an image, with the pressure actions of R31 (R26, R33, R74). -/
def State.allocate (s : State) (t : Transaction) (image : Line) : State :=
  let relieved := s.relieve t.requester
  if relieved.journal.underPressure then
    let asked := relieved.requestSeal .pressure
    if asked.journal.occupancy < asked.journal.capacity then asked.place t image
    else asked.endCapture t .journalFull
  else relieved.place t image

/-- A capture read is answered or times out (R73 to R76). An allocation, or its refusal, that has dropped
the target of a rollback in DRAIN is finished before the failure of R119: the model's choice (log entry
30). -/
def State.captureRead (s : State) (requester : BitVec 4) (tag : BitVec 6) (a : MemAnswer) : State :=
  match s.waqEntry requester tag with
  | none => s
  | some e =>
    if e.marked then s.endCapture e.txn .writeRefused
    else
      match a with
      | .okay image => (s.allocate e.txn image).checkTarget
      | .error => s.endCapture e.txn .captureFailed

end Sys2Proof.Machine
end

