-- ==== Sys2Proof/Machine/Checker.lean ====
section
/-! DEFINITION. The Journal Checker (chapter 8): the scan of VERIFY (R135 to R139) and READ_RECORD
(R142, R143). -/

namespace Sys2Proof.Machine

/-! ### VERIFY -/

/-- The scan completes (R139). -/
def State.completeScan (s : State) (sc : Scan) : State :=
  let reported := s.report
    ⟨.verifyDone, 0, s.epoch.counter, BitVec.ofNat 64 sc.firstBad, count16 sc.bad⟩
  (State.complete { reported with scan := none } .done .none (scanData sc)).freeSlot

/-- Positions that tail has passed are skipped (R136). -/
def Scan.skipTo (sc : Scan) (tail : Nat) : Scan :=
  if sc.position < tail then
    { sc with skipped := sc.skipped + (tail - sc.position), position := tail }
  else sc

/-- The record at the scan position is begun, or the scan completes (R136, R139). -/
def State.scanOn (s : State) (sc : Scan) : State :=
  let at' := sc.skipTo s.journal.tail
  if at'.scanEnd ≤ at'.position then s.completeScan at'
  else
    { s with scan := some { at' with current := .first } }.joinRecordReads
      .verifyImage .verifyHeader at'.position

/-- VERIFY takes the slot and begins its scan (R135). -/
def State.startScan (s : State) : State :=
  let started : State := { s with
    ops.slot := some
      { operation := .verify, source := .command, phase := .scan, joined := .empty, command := true,
        moved := false } }
  started.scanOn
    { scanStart := s.journal.tail, scanEnd := s.journal.written, position := s.journal.tail, checked := 0,
      skipped := 0, bad := 0, unreadable := 0, firstBad := 0, current := ⟨.idle, .idle⟩ }

/-- Every entry whose start is at or below a bad position is marked DAMAGED; LOST stays (R7, R138). -/
def markDamaged (p : Nat) (t : List Checkpoint) : List Checkpoint :=
  t.map fun c => if c.start ≤ p ∧ c.condition = .usable then { c with condition := .damaged } else c

/-- The scan state after the record at its position was checked (R136, R138). -/
def Scan.count (sc : Scan) (bad unreadable : Bool) : Scan :=
  { sc with
    checked := sc.checked + 1
    bad := sc.bad + bit bad
    unreadable := sc.unreadable + bit unreadable
    firstBad := if bad ∧ sc.bad = 0 then sc.position else sc.firstBad
    position := sc.position + 1 }

/-- The record's verdict: bad, and unreadable (R136, R137). -/
def State.scanVerdict (s : State) (sc : Scan) : Bool × Bool :=
  match sc.current.image, sc.current.header with
  | .got image, .got header =>
    (!recordPasses sc.position (s.expectedEpoch sc.position) image (lineHeader header), false)
  | _, _ => (true, true)

/-- Both reads of the scanned position have ended: the record is taken (R136). -/
def State.takeScanned (s : State) (sc : Scan) : State :=
  if sc.position < s.journal.tail then s.scanOn sc
  else
    let v := s.scanVerdict sc
    let marked : State :=
      if v.1 then { s with epoch.table := markDamaged sc.position s.epoch.table } else s
    marked.scanOn (sc.count v.1 v.2)

/-- The owner of a VERIFY read. -/
def verifyOwner : RecordLine → Owner
  | .image => .verifyImage
  | .header => .verifyHeader

/-- A VERIFY read is answered or times out (R136). -/
def State.verifyRead (s : State) (line : RecordLine) (a : MemAnswer) : State :=
  match s.scan with
  | none => s
  | some sc =>
    let sc' := { sc with current := sc.current.onAnswer line a }
    let s' : State := { s with scan := some sc' }
    if (sc'.current.slot line).isAsking then
      s'.joinLineRead (verifyOwner line) (s.journal.lineAddr sc.position line)
    else if sc'.current.ended then s'.takeScanned sc'
    else s'

/-! ### READ_RECORD -/

/-- The positions READ_RECORD accepts (R142). -/
def State.inspectable (s : State) (p : Nat) : Bool :=
  match s.epoch.mode with
  | .passthrough => false
  | .journaling => s.journal.tail ≤ p && p < s.journal.written
  | .broken => s.journal.tail ≤ p && p < s.journal.head

/-- The bytes a read brought; zero when it failed (R143). -/
def ReadSlot.data : ReadSlot → Line
  | .got d => d
  | _ => 0

/-- The read succeeded. -/
def ReadSlot.succeeded : ReadSlot → Bool
  | .got _ => true
  | _ => false

/-- The epoch test is made: in JOURNALING, with the position in [tail, written) (R143). -/
def State.epochTestMade (s : State) (p : Nat) : Bool := s.epoch.mode == .journaling && s.inspectable p

/-- Two bits of a test result: 00 not made, 01 passed, 10 failed (R182). -/
def testBits (made passed : Bool) : Nat := if made then (if passed then 1 else 2) else 0

/-- Both reads of the record succeeded. -/
def Inspection.complete (i : Inspection) : Bool := i.current.image.succeeded && i.current.header.succeeded

/-- The computed check (R143): over the bytes read; a free value when a read failed. -/
def State.computedCheck (s : State) (i : Inspection) : BitVec 16 :=
  if i.complete then checkValue i.current.image.data (lineHeader i.current.header.data)
  else Config.failedReadCheck s.draws

/-- Result data of READ_RECORD (R143, R167, R182). Bits 2 to 7 of the read status, byte 86, for which 12.5
states nothing, are zero by the model's choice (log entry 32). -/
def State.inspectionData (s : State) (i : Inspection) : BitVec 768 :=
  let image := i.current.image.data
  let header := lineHeader i.current.header.data
  let both := i.complete
  let made := both && s.epochTestMade i.position
  let expected := if s.epochTestMade i.position then s.expectedEpoch i.position else none
  let tests := testBits both (flagsTest header) + 4 * testBits both (lapTest i.position header) +
    16 * testBits both (checkTest image header) + 64 * testBits made (epochTest expected header)
  field 4 64 image.toNat ||| field 68 16 header.toNat ||| field 84 2 (s.computedCheck i).toNat |||
    field 86 1 (bit i.current.image.succeeded + 2 * bit i.current.header.succeeded) ||| field 87 1 tests |||
    field 88 1 (bit (s.inspectable i.position)) ||| field 89 6 (if made then expected.getD 0 else 0)

/-- The owner of a READ_RECORD read. -/
def inspectOwner : RecordLine → Owner
  | .image => .inspectImage
  | .header => .inspectHeader

/-- A READ_RECORD read is answered or times out; when both have ended the command completes (R143). -/
def State.inspectRead (s : State) (line : RecordLine) (a : MemAnswer) : State :=
  match s.inspect with
  | none => s
  | some i =>
    let i' := { i with current := i.current.onAnswer line a }
    let s' : State := { s with inspect := some i' }
    if (i'.current.slot line).isAsking then
      s'.joinLineRead (inspectOwner line) (s.journal.lineAddr i.position line)
    else if i'.current.ended then
      State.complete
        { s' with
          inspect := none
          draws := if i'.complete then s.draws else s.draws + 1 }
        .done .none (s.inspectionData i')
    else s'

end Sys2Proof.Machine
end

