-- ==== Sys2Proof/Machine/DataPath.lean ====
section
/-! DEFINITION. The steps of the data path: P_TRANSACTION_ACCEPT (R47), ARBITER_GRANT (R149),
M_PORT_ANSWER (R147), RESPONSE_TIMEOUT (R148), IDENTIFIER_WITHHOLD_EXPIRY (R146). -/

namespace Sys2Proof.Machine

/-- A step of a running part; a part held by a reset takes no step of its own (R180). -/
def whileRunning (s : State) (f : State → State) : Host.Outcome State Fault Refusal :=
  match s.resetPhase with
  | .running => .next (f s)
  | .resetN => .next s
  | .powerOn _ => .next s

/-! ### P_TRANSACTION_ACCEPT -/

/-- The WAQ holds an entry for the line. -/
def State.waqHoldsLine (s : State) (l : LineIndex) : Bool := s.waq.any fun e => e.line == l

/-- The first state of an entry: PARKED for a write to a TRACKED line under HOLD_TRACKED, otherwise
behind its chain (R59). -/
def State.firstState (s : State) (t : Transaction) : WaqState :=
  if t.kind = .write ∧ s.gate.state = .holdTracked ∧ s.decodeLine t.line = .tracked then .parked
  else .waiting

/-- A transaction joins the WAQ at its newest end; at the head of its chain it is decided (R39, R59). -/
def State.enterWaq (s : State) (t : Transaction) : State :=
  State.advance { s with waq := s.waq ++ [⟨t, s.firstState t, false, false⟩] }

/-- A transaction that the Gate lets on (R39). -/
def State.routeTransaction (s : State) (t : Transaction) : State :=
  match t.kind with
  | .write => s.enterWaq t
  | .read =>
    if s.waqHoldsLine t.line then s.enterWaq t
    else s.join (.bypass t.requester t.tag) .read t.addr t.size 0 0

/-- The P port takes a transaction: held off by back-pressure (R40), refused when malformed (R38) or
under FENCE, otherwise let on (R47). -/
def State.acceptTransaction (s : State) (t : Transaction) : State :=
  if s.backPressure then s
  else if !s.transactionFits t then s.refuse t
  else
    match s.gate.state with
    | .fence => s.refuse t
    | .holdAll => s
    | .pass => (s.routeTransaction t).closeStep
    | .holdTracked => (s.routeTransaction t).closeStep

/-- P_TRANSACTION_ACCEPT (R47). -/
def execPTransactionAccept (t : Transaction) (s : State) : Host.Outcome State Fault Refusal :=
  whileRunning s fun s => s.acceptTransaction t

/-! ### ARBITER_GRANT -/

/-- The class of a request, given by its owner (R145). -/
def Owner.cls : Owner → RequestClass
  | .waq _ _ => .forward
  | .bypass _ _ => .forward
  | .capture _ _ => .capture
  | .journalImage _ => .journal
  | .journalHeader _ => .journal
  | .restoreImage => .service
  | .restoreHeader => .service
  | .restoreWrite => .service
  | .verifyImage => .service
  | .verifyHeader => .service
  | .inspectImage => .service
  | .inspectHeader => .service
  | .abandoned => .service

/-- The waiting requests of a class, in the order they joined. -/
def MPort.ofClass (m : MPort) (c : RequestClass) : List Request :=
  m.waiting.filter fun r => r.owner.cls == c

/-- The waiting requests of the highest class that has one (R149). -/
def MPort.topClass (m : MPort) : List Request :=
  if !(m.ofClass .journal).isEmpty then m.ofClass .journal
  else if !(m.ofClass .capture).isEmpty then m.ofClass .capture
  else if !(m.ofClass .forward).isEmpty then m.ofClass .forward
  else m.ofClass .service

/-- Of these, the requests that joined with the first one, in the same step: either may be the older
(R149). -/
def MPort.oldest (m : MPort) : List Request :=
  match m.topClass with
  | [] => []
  | r :: rs => r :: rs.filter fun x => x.joined == r.joined

/-- The request the arbiter grants (R149). -/
def MPort.choice (m : MPort) (tie : Nat) : Option Request :=
  match m.oldest with
  | [] => none
  | [r] => some r
  | r :: rs => (r :: rs)[tie % (rs.length + 1)]?

/-- The identifier is neither outstanding nor withheld (R146). -/
def MPort.identFree (m : MPort) (ident : BitVec 8) : Bool :=
  !m.outstanding.any (fun o => o.ident == ident) && !m.withheld.any (fun w => w.ident == ident)

/-- A slot is free (R146). -/
def MPort.slotFree (m : MPort) : Bool := m.outstanding.length < Config.requestSlots

/-- The request takes a slot and the identifier, becomes outstanding, and its response timer starts
(R146). -/
def State.send (s : State) (ident : BitVec 8) (r : Request) : State :=
  { s with
    mport.waiting := s.mport.waiting.erase r
    mport.outstanding := s.mport.outstanding ++ [⟨ident, r, Config.responseTicks⟩] }

/-- A WAQ entry whose request is granted becomes ISSUED, and the next of its chain its head (R58,
R61). -/
def State.issue (s : State) (r : Request) : State :=
  match r.owner with
  | .waq requester tag => (s.setWaqState requester tag .issued).advance
  | _ => s

/-- One grant (R149). -/
def State.grant (s : State) (ident : BitVec 8) (tie : Nat) : State :=
  if s.mport.slotFree && s.mport.identFree ident then
    match s.mport.choice tie with
    | none => s
    | some r => ((s.send ident r).issue r).closeStep
  else s

/-- ARBITER_GRANT (R149). -/
def execArbiterGrant (ident : BitVec 8) (tie : Nat) (s : State) : Host.Outcome State Fault Refusal :=
  whileRunning s fun s => s.grant ident tie

/-! ### The ends of a request -/

/-- A FORWARD request ends: its transaction is answered (R152). -/
def State.forwardEnds (s : State) (requester : BitVec 4) (tag : BitVec 6) (r : Request) (a : MemAnswer) :
    State :=
  match a with
  | .error =>
    (s.answer requester tag .error).reportLine .memoryError requester (lineOf r.addr)
  | .okay data =>
    match r.kind with
    | .write => s.answer requester tag .okay
    | .read => s.answer requester tag (.okayData (addressedBytes r.addr r.size data))

/-- The owner of a request acts on its answer; a timeout is handed on as ERROR (R147, R148, R153). -/
def State.ownerActs (s : State) (r : Request) (a : MemAnswer) : State :=
  match r.owner with
  | .waq requester tag => (s.removeWaq requester tag).forwardEnds requester tag r a
  | .bypass requester tag => s.forwardEnds requester tag r a
  | .capture requester tag => s.captureRead requester tag a
  | .journalImage p => s.recordWritten p .image a
  | .journalHeader p => s.recordWritten p .header a
  | .restoreImage => s.restoreRead .image a
  | .restoreHeader => s.restoreRead .header a
  | .restoreWrite => s.restoreWritten a
  | .verifyImage => s.verifyRead .image a
  | .verifyHeader => s.verifyRead .header a
  | .inspectImage => s.inspectRead .image a
  | .inspectHeader => s.inspectRead .header a
  | .abandoned => s

/-- The outstanding request of an identifier. -/
def MPort.outstandingOf (m : MPort) (ident : BitVec 8) : Option Request :=
  (m.outstanding.find? fun o => o.ident == ident).map (·.request)

/-- The slot of an identifier's request is freed (R146). -/
def State.freeRequest (s : State) (ident : BitVec 8) : State :=
  { s with mport.outstanding := s.mport.outstanding.filter fun o => o.ident != ident }

/-- A withheld identifier is freed (R146). -/
def State.freeIdent (s : State) (ident : BitVec 8) : State :=
  { s with mport.withheld := s.mport.withheld.filter fun w => w.ident != ident }

/-- The DRAM controller answers: the request ends (R147), or a late answer is discarded and its
withheld identifier freed (R148). -/
def State.portAnswer (s : State) (ident : BitVec 8) (a : MemAnswer) : State :=
  match s.mport.outstandingOf ident with
  | some r => ((s.freeRequest ident).ownerActs r a).closeStep
  | none => s.freeIdent ident

/-- M_PORT_ANSWER (R147). -/
def execMPortAnswer (ident : BitVec 8) (a : MemAnswer) (s : State) : Host.Outcome State Fault Refusal :=
  whileRunning s fun s => s.portAnswer ident a

/-- The identifier of a timed-out request is withheld for 4 ms (R146). -/
def State.withhold (s : State) (ident : BitVec 8) : State :=
  { s with mport.withheld := s.mport.withheld ++ [⟨ident, Config.withholdTicks⟩] }

/-- The response timer of a request expires (R148). -/
def State.timeOut (s : State) (ident : BitVec 8) : State :=
  match s.mport.outstandingOf ident with
  | some r => (((s.freeRequest ident).withhold ident).ownerActs r .error).closeStep
  | none => s

/-- RESPONSE_TIMEOUT (R148). -/
def execResponseTimeout (ident : BitVec 8) (s : State) : Host.Outcome State Fault Refusal :=
  whileRunning s fun s => s.timeOut ident

/-- IDENTIFIER_WITHHOLD_EXPIRY (R146). -/
def execIdentifierWithholdExpiry (ident : BitVec 8) (s : State) : Host.Outcome State Fault Refusal :=
  whileRunning s fun s => s.freeIdent ident

end Sys2Proof.Machine
end

