-- ==== Sys2Proof/Machine/Operations.lean ====
section
/-! DEFINITION. The steps of the long operations that no supervisor and no memory answer brings:
EPOCH_TIMER_EXPIRY (R98), GATHER_END (R103), DRAIN_END (R117). -/

namespace Sys2Proof.Machine

/-- The open epoch has allocated no records (R98). -/
def State.epochEmpty (s : State) : Bool := s.openEntry.any fun c => c.start == s.journal.head

/-- The RUNNING countdown reaches 0: skip, owe or request (R98). -/
def State.timerExpires (s : State) : State :=
  if s.epochEmpty then { s with timer.countdown := .running s.timer.activeInterval }
  else if s.timer.extend then
    { s with
      timer.countdown := .stopped
      ops.owed.timer := true }
  else State.requestSeal { s with timer.countdown := .stopped } .timer

/-- An expiry comes only from a RUNNING countdown (R95). -/
def State.epochTimerExpiry (s : State) : State :=
  match s.timer.countdown with
  | .running _ => s.timerExpires
  | .paused _ => s
  | .stopped => s

/-- EPOCH_TIMER_EXPIRY (R98). -/
def execEpochTimerExpiry (s : State) : Host.Outcome State Fault Refusal :=
  whileRunning s fun s => s.epochTimerExpiry

/-- GATHER's conditions hold: COMMIT, the epoch-limit ending, or DISCARD (R103, R105, R109). -/
def State.gatherEnds (s : State) : State :=
  match s.ops.slot with
  | none => s
  | some sl =>
    match sl.operation with
    | .seal =>
      if s.gatherDone then
        (if s.epoch.counter < Config.epochLimit then s.commit sl else s.limitEnd sl).closeStep
      else s
    | .stop => if s.gatherDone then (s.discard sl).closeStep else s
    | .rollback => s
    | .verify => s

/-- GATHER_END (R103). -/
def execGatherEnd (s : State) : Host.Outcome State Fault Refusal :=
  whileRunning s fun s => s.gatherEnds

/-- DRAIN's conditions hold: RESTORE begins, or SETTLE for an empty walk (R117). -/
def State.drainEnds (s : State) : State :=
  match s.ops.slot, s.engine with
  | some sl, some w =>
    if sl.operation = .rollback ∧ sl.phase = .drain ∧ s.drainDone then
      (if s.journal.head = w.targetStart then s.settle sl w else s.beginRestore w).closeStep
    else s
  | _, _ => s

/-- DRAIN_END (R117). -/
def execDrainEnd (s : State) : Host.Outcome State Fault Refusal :=
  whileRunning s fun s => s.drainEnds

end Sys2Proof.Machine
end

