-- ==== Sys2Proof/Machine/Lines.lean ====
section
/-! DEFINITION. The FAULT line, the fence release timer and the resets (chapters 3 and 11). -/

namespace Sys2Proof.Machine

/-! ### FAULT -/

/-- The actions FAULT_SEEN reports (R178). -/
inductive FaultAction where
  | fencedUnprotected
  | rollbackStarted
  | duringRecovery
  | fencedNoCheckpoint
  | ignoredBroken
  deriving DecidableEq, Repr

/-- Action codes (R178). -/
def FaultAction.code : FaultAction → Nat
  | .fencedUnprotected => 0x01
  | .rollbackStarted => 0x02
  | .duringRecovery => 0x03
  | .fencedNoCheckpoint => 0x04
  | .ignoredBroken => 0x05

/-- The FAULT_SEEN event (R178): the action in detail byte 0, the target epoch in bytes 2 to 7. Byte 1,
for which no rule states a value, is zero by the model's choice (log entry 31). -/
def State.reportFault (s : State) (action : FaultAction) (target count : Nat) : State :=
  s.report ⟨.faultSeen, 0, s.epoch.counter,
    BitVec.ofNat 64 action.code ||| (BitVec.ofNat 48 target).setWidth 64 <<< 16, count⟩

/-- The slot holds a fault-owned rollback, or a command rollback in RESTORE: the fault is counted
(R86). -/
def OpCtl.countsFault (o : OpCtl) : Bool :=
  match o.slot with
  | some sl => sl.operation == .rollback && (sl.source == .fault || sl.phase == .restore)
  | none => false

/-- A fault during recovery is counted, saturating (R132). -/
def State.countFault (s : State) : State := { s with recovery.faults := min (s.recovery.faults + 1) 255 }

/-- The rollback in the slot is fault-owned from now on; a command rollback's gate goes to FENCE
(R89). -/
def State.upgrade (s : State) : State :=
  State.enterFence { s with ops.slot := s.ops.slot.map fun sl => { sl with source := .fault } }

/-- The operation in the slot is displaced by a fault rollback (R86, R88). -/
def State.displace (s : State) : State :=
  match s.ops.slot with
  | none => s
  | some sl =>
    match sl.operation with
    | .seal => s.preemptGather sl
    | .stop => s.preemptGather sl
    | .verify => s.stopScan .preempted
    | .rollback => s.completeIf sl.command .preempted .none (recoveryData s.recovery)

/-- The part is fenced without a rollback (R115). -/
def State.fenceNoCheckpoint (s : State) : State :=
  State.startFenceTimer
    { s.enterFence with
      recovery :=
        { LastRecovery.cleared with outcome := .failedNoCheckpoint, trigger := .fault } }

/-- A FAULT edge in JOURNALING (R86, R178). -/
def State.faultJournaling (s : State) : State :=
  if s.ops.countsFault then
    let counted := s.countFault
    (counted.reportFault .duringRecovery 0 counted.recovery.faults).upgrade
  else
    match faultTarget s.epoch.counter s.policy.faultDepth s.epoch.table with
    | none => (s.reportFault .fencedNoCheckpoint 0 1).fenceNoCheckpoint
    | some c => ((s.reportFault .rollbackStarted c.epoch 1).displace).startFaultRollback c

/-- A FAULT edge is dispatched by the device mode (R178). -/
def State.dispatchFault (s : State) : State :=
  match s.epoch.mode with
  | .passthrough => ((s.reportFault .fencedUnprotected 0 1).enterFence).startFenceTimer
  | .journaling => s.faultJournaling
  | .broken => s.reportFault .ignoredBroken 0 1

/-- The FAULT level rises: with faults enabled, *release armed* is cleared and the edge dispatched
(R177, R178, R51). -/
def State.faultRises (s : State) : State :=
  if s.faultLevel then s
  else
    let high : State := { s with faultLevel := true }
    if s.policy.faultEnable then State.dispatchFault { high with gate.armed := none } else high

/-- FAULT_EDGE (R178). -/
def execFaultEdge (s : State) : Host.Outcome State Fault Refusal :=
  whileRunning s fun s => s.faultRises

/-- The FAULT level falls, and fence release is examined (R52, R177). -/
def State.faultFalls (s : State) : State :=
  if s.faultLevel then State.examineRelease { s with faultLevel := false } else s

/-- FAULT_LEVEL_FALL (R52). -/
def execFaultLevelFall (s : State) : Host.Outcome State Fault Refusal :=
  whileRunning s fun s => s.faultFalls

/-- The fence release timer expires: it stops and sets *release armed* (R53). -/
def State.fenceTimerExpires (s : State) : State :=
  match s.gate.timer with
  | none => s
  | some _ => (State.armRelease { s with gate.timer := none } .timer).examineRelease

/-- FENCE_RELEASE_TIMER_EXPIRY (R53). -/
def execFenceReleaseTimerExpiry (s : State) : Host.Outcome State Fault Refusal :=
  whileRunning s fun s => s.fenceTimerExpires

/-! ### Resets -/

/-- Every block takes its reset values; the command queue and the draws of free values are the
model's and stay (R180). -/
def State.resetTo (s : State) (phase : ResetPhase) (recovery : LastRecovery) : State :=
  { State.reset with
    resetPhase := phase
    recovery := recovery
    draws := s.draws
    pending := s.pending }

/-- The Last Recovery Record at a RESET_N assertion (R133). -/
def LastRecovery.interrupt (r : LastRecovery) : LastRecovery :=
  match r.outcome with
  | .inProgress => { r with outcome := .interrupted }
  | _ => r

/-- RESET_N is low (R180). -/
def ResetPhase.lineLow : ResetPhase → Bool
  | .running => false
  | .resetN => true
  | .powerOn low => low

/-- POWER_ON_RESET (R180, R133). RESET_N keeps its level. -/
def execPowerOnReset (s : State) : Host.Outcome State Fault Refusal :=
  .next (s.resetTo (.powerOn s.resetPhase.lineLow) .cleared)

/-- RESET_N_ASSERT (R180); during power-on reset it adds nothing but the line's level. -/
def execResetNAssert (s : State) : Host.Outcome State Fault Refusal :=
  match s.resetPhase with
  | .running => .next (s.resetTo .resetN s.recovery.interrupt)
  | .resetN => .next s
  | .powerOn _ => .next { s with resetPhase := .powerOn true }

/-- A reset ends: the ADDR pins are sampled and FAULT takes its first sample, without an edge; `phase` says
whether the part now runs (R155, R177, R180). -/
def State.endReset (s : State) (phase : ResetPhase) (addr1 addr0 faultLevel : Bool) : State :=
  { s with
    resetPhase := phase
    i2c.addr1 := addr1
    i2c.addr0 := addr0
    faultLevel := faultLevel }

/-- RESET_N_END (R180). Power-on reset, if it lasts, goes on holding the part (log entry 22). -/
def execResetNEnd (addr1 addr0 faultLevel : Bool) (s : State) : Host.Outcome State Fault Refusal :=
  match s.resetPhase with
  | .resetN => .next (s.endReset .running addr1 addr0 faultLevel)
  | .running => .next s
  | .powerOn true => .next (s.endReset (.powerOn false) addr1 addr0 faultLevel)
  | .powerOn false => .next s

/-- POWER_ON_RESET_END (R155). While RESET_N stays low it goes on holding the part (R180). -/
def execPowerOnResetEnd (addr1 addr0 faultLevel : Bool) (s : State) : Host.Outcome State Fault Refusal :=
  match s.resetPhase with
  | .powerOn false => .next (s.endReset .running addr1 addr0 faultLevel)
  | .powerOn true => .next (s.endReset .resetN addr1 addr0 faultLevel)
  | .running => .next s
  | .resetN => .next s

end Sys2Proof.Machine
end

