-- ==== Sys2Proof/Machine/Mailbox.lean ====
section
/-! DEFINITION. The Command Mailbox: how a CMD write is taken or refused (R160, R162), and what each
command does in the step it is taken (chapter 10 and the commands' own chapters). -/

namespace Sys2Proof.Machine

/-! ### Taking a command -/

/-- A write transaction selected a register and carried `n` data bytes (R156). -/
def State.select (s : State) (index : Byte) (n : Nat) : State :=
  { s with
    i2c.index := index
    i2c.pointer := n }

/-- The index of CMD (R182). -/
def cmdIndex : Byte := 0x04

/-- The mailbox refuses a CMD write while a command runs (R162). -/
def State.refuseCommand (s : State) (code : Byte) : State :=
  s.report (doneReport s.epoch.counter code .busy .none)

/-- A CMD write of a command other than ABORT: refused while CMD holds a code, otherwise taken with a
copy of PARAM (R160, R162). -/
def State.takeCommand (s : State) (code : Byte) (body : State → State) : State :=
  if s.mailbox.cmd = 0 then
    body { s with
      mailbox.cmd := code
      mailbox.copy := s.mailbox.param }
  else s.refuseCommand code

/-- The command completes REJECTED and carries no data (R166, R167). -/
def State.reject (s : State) (reason : Reason) : State := s.complete .rejected reason 0

/-- The command completes BUSY: the slot is busy (R84). -/
def State.busy (s : State) : State := s.complete .busy .none 0

/-! ### SET_JOURNAL -/

/-- The checks of SET_JOURNAL in PASSTHROUGH; `none` means all pass (R20). -/
def State.journalCheck (s : State) (p : JournalParams) : Option Reason :=
  if p.capacity = 0 then none
  else if ¬(1024 ≤ p.capacity ∧ p.capacity ≤ 16777216) then some .badParam
  else if p.base % 4096 ≠ 0 then some .badParam
  else if ¬(1 ≤ p.depth ∧ p.depth ≤ 4) then some .badParam
  else if 2 ^ 40 < p.base + p.capacity * 128 then some .badParam
  else if
    tableMeets s.regions.active (p.base / 64) (p.base / 64 + 2 * p.capacity - 1) ||
      tableMeets s.regions.shadow (p.base / 64) (p.base / 64 + 2 * p.capacity - 1) then some .overlap
  else none

/-- The geometry SET_JOURNAL leaves (R20). -/
def geometryOf (p : JournalParams) : JournalParams := if p.capacity = 0 then ⟨0, 0, 1⟩ else p

/-- SET_JOURNAL (R20). -/
def State.setJournal (s : State) : State :=
  if s.epoch.mode = .passthrough then
    let p := journalParams s.mailbox.copy
    match s.journalCheck p with
    | some reason => s.reject reason
    | none =>
      let g := geometryOf p
      State.complete
        { s with
          journal.base := g.base
          journal.capacity := g.capacity
          journal.depth := g.depth }
        .done .none (field 4 5 g.base ||| field 12 4 g.capacity ||| field 16 1 g.depth)
  else s.reject .wrongMode

/-! ### SET_REGION and SET_POLICY -/

/-- The shadow table without one entry (R44). -/
def otherEntries (t : Vector RegionEntry 8) (index : Nat) : List RegionEntry := t.toList.eraseIdx index

/-- The checks of SET_REGION; the new entry when all pass (R44). -/
def State.regionCheck (s : State) (p : RegionParams) : Except Reason RegionEntry :=
  if 7 < p.index then .error .badParam
  else if p.valid then
    match lineModeOf p.mode with
    | none => .error .badParam
    | some mode =>
      if p.base % 64 ≠ 0 ∨ (p.limit + 1) % 64 ≠ 0 then .error .badParam
      else if ¬(p.base ≤ p.limit ∧ p.limit ≤ 2 ^ 34 - 1) then .error .badParam
      else if (otherEntries s.regions.shadow p.index).any (RegionEntry.meets p.base p.limit) then
        .error .overlap
      else if
        s.journal.configured &&
          rangesOverlap p.base p.limit (s.journal.base / 64)
            (s.journal.base / 64 + 2 * s.journal.capacity - 1) then .error .overlap
      else .ok (.valid mode (BitVec.ofNat 34 p.base) (BitVec.ofNat 34 p.limit))
  else
    .ok (.notValid (lineModeNumber (Config.notValidMode s.draws)) (Config.notValidBase s.draws)
      (Config.notValidLimit s.draws))

/-- The 11 bytes of a shadow entry in SET_REGION's result data (R167). -/
def RegionEntry.bytes : RegionEntry → Nat
  | .notValid mode base limit => mode.code * 2 ^ 4 + base.toNat * 2 ^ 8 + limit.toNat * 2 ^ 48
  | .valid mode base limit => 1 + mode.code * 2 ^ 4 + base.toNat * 2 ^ 8 + limit.toNat * 2 ^ 48

/-- Fields of equal size one after another from a byte offset. -/
def fieldsFrom (off bytes : Nat) : List Nat → BitVec 768
  | [] => 0
  | v :: vs => field off bytes v ||| fieldsFrom (off + bytes) bytes vs

/-- Result data of SET_REGION: the shadow table, then the shadow unmapped mode (R167). -/
def regionData (r : Regions) : BitVec 768 :=
  fieldsFrom 4 11 (r.shadow.toList.map RegionEntry.bytes) ||| field 92 1 r.shadowUnmapped.code

/-- Outside JOURNALING the shadow values are copied at once (R45). -/
def State.copyIfIdle (s : State) : State :=
  match s.epoch.mode with
  | .passthrough => s.copyRegions
  | .journaling => s
  | .broken => s.copyRegions

/-- SET_REGION (R44). -/
def State.setRegion (s : State) : State :=
  let p := regionParams s.mailbox.copy
  match s.regionCheck p with
  | .error reason => s.complete .rejected reason (regionData s.regions)
  | .ok entry =>
    let written : State := { s with
      regions.shadow := s.regions.shadow.setIfInBounds p.index entry
      draws := if p.valid then s.draws else s.draws + 1 }
    written.copyIfIdle.complete .done .none (regionData written.regions)

/-- Result data of SET_POLICY (R167). -/
def policyData (r : Regions) (p : Policy) : BitVec 768 :=
  field 4 1 r.shadowUnmapped.code ||| field 5 1 r.activeUnmapped.code ||| field 6 1 (bit p.faultEnable) |||
    field 7 1 p.faultDepth ||| field 8 2 p.fenceDelay

/-- The checks of SET_POLICY; the new unmapped mode when all pass (R164). -/
def policyCheck (p : PolicyParams) : Option Unmapped :=
  if p.faultEnable ≤ 1 ∧ p.faultDepth ≤ 3 then unmappedOf p.unmapped else none

/-- SET_POLICY (R164). -/
def State.setPolicy (s : State) : State :=
  let p := policyParams s.mailbox.copy
  match policyCheck p with
  | none => s.complete .rejected .badParam (policyData s.regions s.policy)
  | some u =>
    let written := State.copyIfIdle { s with
      regions.shadowUnmapped := u
      policy := { faultEnable := p.faultEnable == 1, faultDepth := p.faultDepth, fenceDelay := p.fenceDelay } }
    written.complete .done .none (policyData written.regions written.policy)

/-! ### START, STOP, SEAL -/

/-- START (R11). -/
def State.startJournaling (s : State) : State :=
  match s.epoch.mode with
  | .journaling => s.reject .wrongMode
  | .broken => s.reject .wrongMode
  | .passthrough =>
    if s.journal.configured then
      let opened := State.epochOpen { s with
        epoch := { mode := .journaling, counter := 1, table := [newEntry 1 0 .start] }
        journal.head := 0
        journal.written := 0
        journal.tail := 0
        journal.ended := [] }
      (opened.complete .done .none (counterData 1)).closeStep
    else s.reject .badParam

/-- STOP (R107, R84). -/
def State.stopJournaling (s : State) : State :=
  match s.epoch.mode with
  | .passthrough => s.complete .done .none 0
  | .broken => s.reject .wrongMode
  | .journaling =>
    match s.ops.slot with
    | none => s.startGather .stop .command .empty true
    | some _ => s.busy

/-- SEAL (R101, R84, R87). -/
def State.sealEpoch (s : State) : State :=
  match s.epoch.mode with
  | .passthrough => s.reject .wrongMode
  | .broken => s.reject .wrongMode
  | .journaling =>
    match s.ops.slot with
    | none => s.startGather .seal .command .empty true
    | some sl =>
      match sl.operation with
      | .seal => { s with ops.slot := some { sl with command := true } }
      | .stop => s.busy
      | .rollback => s.busy
      | .verify => s.busy

/-! ### ROLLBACK and VERIFY -/

/-- The entry a target epoch names; 0 names the OPEN entry (R113). -/
def State.targetEntry (s : State) (target : Nat) : Option Checkpoint :=
  if target = 0 then s.openEntry else s.epoch.table.find? fun c => c.epoch == target

/-- A ROLLBACK that has passed its checks meets the slot (R83, R84, R88). -/
def State.requestRollback (s : State) (c : Checkpoint) : State :=
  match s.ops.slot with
  | none => s.startCommandRollback c
  | some sl =>
    match sl.operation with
    | .seal => (s.preemptGather { sl with command := false }).startCommandRollback c
    | .stop => s.busy
    | .rollback => s.busy
    | .verify => s.busy

/-- ROLLBACK (R113). -/
def State.rollbackTo (s : State) : State :=
  match s.epoch.mode with
  | .passthrough => s.reject .wrongMode
  | .broken => s.reject .wrongMode
  | .journaling =>
    if s.epoch.counter < Config.epochLimit then
      match s.targetEntry (rollbackTarget s.mailbox.copy) with
      | none => s.reject .noSuchCheckpoint
      | some c =>
        match c.condition with
        | .damaged => s.reject .checkpointDamaged
        | .lost => s.reject .checkpointLost
        | .usable => s.requestRollback c
    else s.reject .epochLimit

/-- VERIFY (R135). -/
def State.verifyJournal (s : State) : State :=
  match s.epoch.mode with
  | .passthrough => s.reject .wrongMode
  | .broken => s.reject .wrongMode
  | .journaling =>
    match s.ops.slot with
    | none => s.startScan.closeStep
    | some _ => s.busy

/-! ### The short commands -/

/-- Result data of RELEASE (R167). *release armed* is shown as 0x01 or 0x00, for which no rule states a code, by
the model's choice (log entry 32). -/
def releaseData (g : Gate) : BitVec 768 := field 4 1 g.state.code ||| field 5 1 (bit g.armed.isSome)

/-- RELEASE (R54). -/
def State.releaseFence (s : State) : State :=
  match s.epoch.mode with
  | .broken => s.reject .gateBroken
  | _ =>
    let after :=
      if s.gate.state = .fence ∧ s.gate.armed = none then (s.armRelease .command).examineRelease else s
    after.complete .done .none (releaseData after.gate)

/-- RECOVER (R131). -/
def State.recoverPart (s : State) : State :=
  match s.epoch.mode with
  | .passthrough => s.reject .wrongMode
  | .journaling => s.reject .wrongMode
  | .broken =>
    let left := State.copyRegions { s with
      epoch.mode := .passthrough
      journal.head := 0
      journal.written := 0
      journal.tail := 0
      journal.ended := []
      ltt := [] }
    left.examineRelease.complete .done .none
      (field 4 8 s.journal.head ||| field 12 8 s.journal.written ||| field 20 8 s.journal.tail)

/-- The 20 bytes of a checkpoint entry (R182). -/
def Checkpoint.bytes (c : Checkpoint) : Nat :=
  c.epoch % 2 ^ 48 + c.start % 2 ^ 64 * 2 ^ 48 + c.state.code * 2 ^ 112 + c.condition.code * 2 ^ 116 +
    c.openedBy.code * 2 ^ 120 + c.repeats % 2 ^ 32 * 2 ^ 128

/-- Result data of READ_CHECKPOINTS (R144, R167). -/
def checkpointData (e : EpochCtl) : BitVec 768 :=
  field 4 1 e.table.length ||| field 8 6 e.counter ||| fieldsFrom 16 20 (e.table.map Checkpoint.bytes)

/-- READ_CHECKPOINTS (R144). -/
def State.readTable (s : State) : State := s.complete .done .none (checkpointData s.epoch)

/-- READ_RECORD (R142). -/
def State.readRecordAt (s : State) : State :=
  match s.epoch.mode with
  | .passthrough => s.reject .wrongMode
  | _ =>
    let p := recordPosition s.mailbox.copy
    if s.inspectable p then
      (State.joinRecordReads { s with inspect := some { position := p, current := .first } }
        .inspectImage .inspectHeader p).closeStep
    else s.reject .badParam

/-- A value that is no command code completes at once (R160). -/
def State.rejectCode (s : State) : State := s.reject .badParam

/-! ### ABORT -/

/-- The running command's operation is at an abortable point: it ends (R92, R163). -/
def State.honourAbort (s : State) : State :=
  match s.ops.slot with
  | none => s
  | some sl =>
    match sl.operation with
    | .seal => if sl.source = .command ∧ sl.command then (s.abortGather sl).closeStep else s
    | .stop => if sl.command then (s.abortGather sl).closeStep else s
    | .rollback =>
      if sl.source = .command ∧ sl.phase = .drain ∧ sl.command then (s.abortDrain sl).closeStep else s
    | .verify => if sl.command then (State.stopScan s .aborted).freeSlot else s

/-- ABORT is written to CMD: with a command running it sets *abort pending* (R160, R163). -/
def State.abortWritten (s : State) : State :=
  if s.mailbox.cmd = 0 then s
  else if s.ops.abortPending then s
  else State.honourAbort { s with ops.abortPending := true }

/-! ### CMD writes by value -/

/-- A value written to CMD takes effect (R160 and the table of 10.3). -/
def State.cmdWritten (s : State) (value : Byte) : State :=
  match value.toNat with
  | 0x00 => s
  | 0x01 => s.takeCommand value State.setJournal
  | 0x02 => s.takeCommand value State.setRegion
  | 0x03 => s.takeCommand value State.setPolicy
  | 0x04 => s.takeCommand value State.startJournaling
  | 0x05 => s.takeCommand value State.stopJournaling
  | 0x06 => s.takeCommand value State.sealEpoch
  | 0x07 => s.takeCommand value State.rollbackTo
  | 0x08 => s.takeCommand value State.verifyJournal
  | 0x09 => s.takeCommand value State.releaseFence
  | 0x0A => s.takeCommand value State.recoverPart
  | 0x0B => s.takeCommand value State.readTable
  | 0x0C => s.takeCommand value State.readRecordAt
  | 0x0F => s.abortWritten
  | _ => s.takeCommand value State.rejectCode

/-- A mailbox command's row: a write transaction of its code to CMD. -/
def runCommand (code : Byte) (body : State → State) (s : State) : Host.Outcome State Fault Refusal :=
  whileRunning s fun s => (s.select cmdIndex 1).takeCommand code body

/-- SET_JOURNAL (R20). -/
def execSetJournal (s : State) : Host.Outcome State Fault Refusal := runCommand 0x01 State.setJournal s
/-- SET_REGION (R44). -/
def execSetRegion (s : State) : Host.Outcome State Fault Refusal := runCommand 0x02 State.setRegion s
/-- SET_POLICY (R164). -/
def execSetPolicy (s : State) : Host.Outcome State Fault Refusal := runCommand 0x03 State.setPolicy s
/-- START (R11). -/
def execStart (s : State) : Host.Outcome State Fault Refusal := runCommand 0x04 State.startJournaling s
/-- STOP (R107). -/
def execStop (s : State) : Host.Outcome State Fault Refusal := runCommand 0x05 State.stopJournaling s
/-- SEAL (R101). -/
def execSeal (s : State) : Host.Outcome State Fault Refusal := runCommand 0x06 State.sealEpoch s
/-- ROLLBACK (R113). -/
def execRollback (s : State) : Host.Outcome State Fault Refusal := runCommand 0x07 State.rollbackTo s
/-- VERIFY (R135). -/
def execVerify (s : State) : Host.Outcome State Fault Refusal := runCommand 0x08 State.verifyJournal s
/-- RELEASE (R54). -/
def execRelease (s : State) : Host.Outcome State Fault Refusal := runCommand 0x09 State.releaseFence s
/-- RECOVER (R131). -/
def execRecover (s : State) : Host.Outcome State Fault Refusal := runCommand 0x0A State.recoverPart s
/-- READ_CHECKPOINTS (R144). -/
def execReadCheckpoints (s : State) : Host.Outcome State Fault Refusal := runCommand 0x0B State.readTable s
/-- READ_RECORD (R142). -/
def execReadRecord (s : State) : Host.Outcome State Fault Refusal := runCommand 0x0C State.readRecordAt s

/-- ABORT (R163). -/
def execAbort (s : State) : Host.Outcome State Fault Refusal :=
  whileRunning s fun s => (s.select cmdIndex 1).abortWritten

/-- INVALID_COMMAND_CODE (R160): the value written acts as CMD's table gives. -/
def execInvalidCommandCode (value : Byte) (s : State) : Host.Outcome State Fault Refusal :=
  whileRunning s fun s => (s.select cmdIndex 1).cmdWritten value

end Sys2Proof.Machine
end

