-- ==== Sys2Proof/Machine/Registers.lean ====
section
/-! DEFINITION. The register window (chapters 10 and 12): write transactions to TIMER_CTL, EVENT_ACK,
ALERT_MASK and the other registers, what a read returns (R157, R182), the I2C address (R155), and
ALERT_N (R176). -/

namespace Sys2Proof.Machine

/-! ### The target's address -/

/-- The target's 7-bit I2C address (R155). -/
def I2c.address (i : I2c) : BitVec 7 := BitVec.ofNat 7 (0x2C + 2 * bit i.addr1 + bit i.addr0)

/-- The address on the bus is the target's own; the general call, which is 0, and every 10-bit address
are not (R155). -/
def I2c.owns (i : I2c) : BusAddress → Bool
  | .sevenBit a => a == i.address
  | .tenBit _ => false

/-- The port acknowledges an address: its own, except while a reset holds the part (R155, R180). -/
def State.acknowledges (s : State) (address : BusAddress) : Bool :=
  match s.resetPhase with
  | .running => s.i2c.owns address
  | .resetN => false
  | .powerOn _ => false

/-! ### Writes -/

/-- TIMER_CTL as a word: NEXT_INTERVAL in bits 0 to 23, EXTEND in bit 24 (R182). -/
def EpochTimer.word (t : EpochTimer) : BitVec 32 :=
  BitVec.ofNat 32 (t.nextInterval % 2 ^ 24 + bit t.extend * 2 ^ 24)

/-- The staged bytes replace NEXT_INTERVAL and EXTEND; clearing EXTEND with timer-owed set requests a
TIMER seal (R94, R99). -/
def State.writeTimerCtl (s : State) (bytes : List Byte) : State :=
  let w := writeBytes s.timer.word bytes
  let written : State := { s with
    timer.nextInterval := (w.extractLsb' 0 24).toNat
    timer.extend := w.getLsbD 24 }
  if s.timer.extend && !w.getLsbD 24 && s.ops.owed.timer then written.requestSeal .timer else written

/-- TIMER_CTL_WRITE (R94). -/
def execTimerCtlWrite (bytes : List Byte) (s : State) : Host.Outcome State Fault Refusal :=
  whileRunning s fun s => (s.select 0x03 bytes.length).writeTimerCtl bytes

/-- The sequence number two staged bytes spell (R156). -/
def ackNumber : List Byte → Option Nat
  | b0 :: b1 :: _ => some (b0.toNat + b1.toNat * 256)
  | _ => none

/-- A complete EVENT_ACK write that names the head's sequence number removes the head (R175). -/
def Events.acknowledge (q : Events) (bytes : List Byte) : Events :=
  match q.queue with
  | [] => q
  | e :: rest => if ackNumber bytes = some e.seq then { q with queue := rest } else q

/-- A write to EVENT_ACK (R175). -/
def State.writeEventAck (s : State) (bytes : List Byte) : State :=
  { s with events := s.events.acknowledge bytes }

/-- EVENT_ACK (R175). -/
def execEventAck (bytes : List Byte) (s : State) : Host.Outcome State Fault Refusal :=
  whileRunning s fun s => (s.select 0x08 bytes.length).writeEventAck bytes

/-- A write to ALERT_MASK replaces the bytes written (R176). -/
def State.writeAlertMask (s : State) (bytes : List Byte) : State :=
  { s with events.alertMask := writeBytes s.events.alertMask bytes }

/-- ALERT_MASK_WRITE (R176). -/
def execAlertMaskWrite (bytes : List Byte) (s : State) : Host.Outcome State Fault Refusal :=
  whileRunning s fun s => (s.select 0x09 bytes.length).writeAlertMask bytes

/-- A write transaction's bytes reach the register at its index: PARAM takes them (R158); the
registers with rows of their own act as those rows do; read-only registers and unassigned indexes
ignore them (R157). A transaction with no data byte changes no register (R156). -/
def State.writeRegister (s : State) (index : Byte) (bytes : List Byte) : State :=
  match index.toNat, bytes with
  | _, [] => s
  | 0x03, _ => s.writeTimerCtl bytes
  | 0x04, value :: _ => s.cmdWritten value
  | 0x05, _ => { s with mailbox.param := writeBytes s.mailbox.param bytes }
  | 0x08, _ => s.writeEventAck bytes
  | 0x09, _ => s.writeAlertMask bytes
  | _, _ => s

/-- A write transaction on the bus, taken when it ends; one to another address is not the port's (R155,
R156). -/
def State.writeTransaction (s : State) (target : WriteTarget) (bytes : List Byte) : State :=
  if s.acknowledges target.address then
    (s.select target.index bytes.length).writeRegister target.index bytes
  else s

/-- REGISTER_WRITE (R157). -/
def execRegisterWrite (target : WriteTarget) (bytes : List Byte) (s : State) :
    Host.Outcome State Fault Refusal :=
  whileRunning s fun s => s.writeTransaction target bytes

/-! ### Reads -/

/-- IDENT (R182). -/
def identRegister : BitVec 768 :=
  field 0 2 216 ||| field 2 1 Config.revision.toNat ||| field 3 1 16 ||| field 4 1 4 ||| field 5 1 16 |||
    field 6 1 32

/-- STATUS byte 2 (12.3). -/
def State.statusFlags (s : State) : Nat :=
  bit s.gate.armed.isSome + 2 * bit s.faultLevel + 4 * bit s.ops.abortPending + 8 * bit s.ops.owed.timer +
    16 * bit s.ops.owed.pressure + 32 * bit s.ops.owed.journalFault

/-- STATUS bytes 3 to 5: the operation in the slot, its phase and source (12.3). -/
def slotFields : Option Slot → BitVec 768
  | none => 0
  | some sl => field 3 1 sl.operation.code ||| field 4 1 sl.phase.code ||| field 5 1 sl.source.code

/-- STATUS (12.3). -/
def State.statusRegister (s : State) : BitVec 768 :=
  field 0 1 s.epoch.mode.code ||| field 1 1 s.gate.state.code ||| field 2 1 s.statusFlags |||
    slotFields s.ops.slot ||| field 6 1 s.events.queue.length ||| field 7 1 s.epoch.table.length |||
    field 8 6 s.epoch.counter

/-- JOURNAL_STATE (R182). -/
def Journal.register (j : Journal) : BitVec 768 :=
  field 0 5 j.base ||| field 8 4 j.capacity ||| field 12 1 j.depth ||| field 16 8 j.head |||
    field 24 8 j.written ||| field 32 8 j.tail

/-- The 20 bytes of an event (12.4). -/
def Event.register (e : Event) : BitVec 768 :=
  field 0 2 e.seq ||| field 2 1 e.kind.code ||| field 3 1 e.requester.toNat ||| field 4 6 e.epoch |||
    field 10 8 e.detail.toNat ||| field 18 2 e.count

/-- EVENT: the head event, or zeros (R175). -/
def Events.register (q : Events) : BitVec 768 :=
  match q.queue with
  | [] => 0
  | e :: _ => e.register

/-- LAST_RECOVERY (12.5). -/
def LastRecovery.register (r : LastRecovery) : BitVec 768 :=
  field 0 1 r.outcome.code ||| field 1 1 r.trigger.code ||| field 2 1 r.phase.code ||| field 3 1 r.faults |||
    field 4 6 r.targetEpoch ||| field 10 6 r.newEpoch ||| field 16 8 r.toRestore ||| field 24 8 r.restored |||
    field 32 8 r.failingPosition

/-- The snapshot of the register at an index; bytes past a register's last, EVENT_ACK and unassigned
indexes read as zero (R156, R157, R182). -/
def State.snapshot (s : State) (index : Byte) : BitVec 768 :=
  match index.toNat with
  | 0x00 => identRegister
  | 0x01 => s.statusRegister
  | 0x02 => s.journal.register
  | 0x03 => s.timer.word.setWidth 768
  | 0x04 => s.mailbox.cmd.setWidth 768
  | 0x05 => s.mailbox.param.setWidth 768
  | 0x06 => s.mailbox.result
  | 0x07 => s.events.register
  | 0x09 => s.events.alertMask.setWidth 768
  | 0x0A => s.recovery.register
  | _ => 0

/-- The byte pointer takes a value (R156). -/
def State.pointAt (s : State) (n : Nat) : State := { s with i2c.pointer := n }

/-- `n` bytes are sent, each the snapshot's byte at the pointer, which each byte advances by 1 (R156). -/
def State.sendBytes (snapshot : BitVec 768) : Nat → State → List Byte × State
  | 0, s => ([], s)
  | n + 1, s =>
    let rest := State.sendBytes snapshot n (s.pointAt (s.i2c.pointer + 1))
    (byteAt snapshot s.i2c.pointer :: rest.1, rest.2)

/-- A read transaction in which `n` bytes are sent: the snapshot is taken as the address is acknowledged,
and it starts at byte 0 of the register the index selects (R155, R156, R157). The table has no row for a
read; this is what one returns and does to the port (log entry 21). -/
def State.readTransaction (s : State) (address : BusAddress) (n : Nat) : Option (List Byte × State) :=
  if s.acknowledges address then some (State.sendBytes (s.snapshot s.i2c.index) n (s.pointAt 0)) else none

/-- The bit of ALERT_MASK that enables a kind (R176). -/
def EventKind.enabledBy (k : EventKind) (mask : BitVec 16) : Bool := mask.getLsbD (k.code - 1)

/-- ALERT_N is driven low: the queue holds an event of an enabled kind (R176). A reset empties the
queue, which releases it (R180). -/
def State.alertLow (s : State) : Bool := s.events.queue.any fun e => e.kind.enabledBy s.events.alertMask

end Sys2Proof.Machine
end

