-- ==== Sys2Proof/Machine/Clock.lean ====
section
/-! DEFINITION. The passing of time: one tick of 10 µs (Conventions). The table has no row for a tick;
it is what `step` does on an empty queue of commands (log entry 4). A timer that has no tick left puts
the command of its expiry into the queue. -/

namespace Sys2Proof.Machine

/-- One tick of a RUNNING countdown (R95). -/
def Countdown.tick : Countdown → Countdown
  | .running n => .running (n - 1)
  | .paused n => .paused n
  | .stopped => .stopped

/-- The countdown is RUNNING with no tick left (R98). -/
def Countdown.due : Countdown → Bool
  | .running n => n == 0
  | .paused _ => false
  | .stopped => false

/-- Every running timer counts one tick (R95, R53, R146). -/
def State.countTick (s : State) : State :=
  { s with
    timer.countdown := s.timer.countdown.tick
    gate.timer := s.gate.timer.map fun n => n - 1
    mport.outstanding := s.mport.outstanding.map fun o => { o with timer := o.timer - 1 }
    mport.withheld := s.mport.withheld.map fun w => { w with timer := w.timer - 1 } }

/-- The expiry commands of the timers with no tick left. -/
def State.dueExpiries (s : State) : List Instr :=
  (s.mport.outstanding.filter fun o => o.timer == 0).map (fun o => .responseTimeout o.ident) ++
    (s.mport.withheld.filter fun w => w.timer == 0).map (fun w => .identifierWithholdExpiry w.ident) ++
    (if s.timer.countdown.due then [.epochTimerExpiry] else []) ++
    (if s.gate.timer = some 0 then [.fenceReleaseTimerExpiry] else [])

/-- One tick; a part held by a reset counts none (R180). -/
def State.tick (s : State) : State :=
  match s.resetPhase with
  | .running => { s.countTick with pending := s.pending ++ s.countTick.dueExpiries }
  | .resetN => s
  | .powerOn _ => s

end Sys2Proof.Machine
end

