-- ==== Sys2Proof/Machine/Dispatch.lean ====
section
/-! DEFINITION. The meaning of each command, one arm per row of spec/opcode_table.json. -/

namespace Sys2Proof.Machine

def exec (i : Instr) (s : State) : Host.Outcome State Fault Refusal :=
  match i with
  | .pTransactionAccept t => Sys2Proof.Machine.execPTransactionAccept t s
  | .arbiterGrant ident tie => Sys2Proof.Machine.execArbiterGrant ident tie s
  | .mPortAnswer ident a => Sys2Proof.Machine.execMPortAnswer ident a s
  | .responseTimeout ident => Sys2Proof.Machine.execResponseTimeout ident s
  | .identifierWithholdExpiry ident => Sys2Proof.Machine.execIdentifierWithholdExpiry ident s
  | .epochTimerExpiry => Sys2Proof.Machine.execEpochTimerExpiry s
  | .gatherEnd => Sys2Proof.Machine.execGatherEnd s
  | .drainEnd => Sys2Proof.Machine.execDrainEnd s
  | .faultEdge => Sys2Proof.Machine.execFaultEdge s
  | .faultLevelFall => Sys2Proof.Machine.execFaultLevelFall s
  | .fenceReleaseTimerExpiry => Sys2Proof.Machine.execFenceReleaseTimerExpiry s
  | .powerOnReset => Sys2Proof.Machine.execPowerOnReset s
  | .resetNAssert => Sys2Proof.Machine.execResetNAssert s
  | .resetNEnd x y f => Sys2Proof.Machine.execResetNEnd x y f s
  | .setJournal => Sys2Proof.Machine.execSetJournal s
  | .setRegion => Sys2Proof.Machine.execSetRegion s
  | .setPolicy => Sys2Proof.Machine.execSetPolicy s
  | .start => Sys2Proof.Machine.execStart s
  | .stop => Sys2Proof.Machine.execStop s
  | .seal => Sys2Proof.Machine.execSeal s
  | .rollback => Sys2Proof.Machine.execRollback s
  | .verify => Sys2Proof.Machine.execVerify s
  | .release => Sys2Proof.Machine.execRelease s
  | .recover => Sys2Proof.Machine.execRecover s
  | .readCheckpoints => Sys2Proof.Machine.execReadCheckpoints s
  | .readRecord => Sys2Proof.Machine.execReadRecord s
  | .abort => Sys2Proof.Machine.execAbort s
  | .invalidCommandCode v => Sys2Proof.Machine.execInvalidCommandCode v s
  | .timerCtlWrite bs => Sys2Proof.Machine.execTimerCtlWrite bs s
  | .eventAck bs => Sys2Proof.Machine.execEventAck bs s
  | .alertMaskWrite bs => Sys2Proof.Machine.execAlertMaskWrite bs s
  | .registerWrite target bs => Sys2Proof.Machine.execRegisterWrite target bs s
  | .powerOnResetEnd x y f => Sys2Proof.Machine.execPowerOnResetEnd x y f s

end Sys2Proof.Machine
end

