-- ==== Sys2Proof/Safety.lean ====
section
/-! DEFINITION. What a state of a sound part looks like, block by block, in the terms the claims use:
the Event Queue (R170, R171, R173), the bounded resources (R56, R65, R70, R71, R146, R149), modes and
gate (R1, R17, R50, R51, R53, R90), the running command and operation (R80, R81, R112, R132, R160), the
requests of the WAQ entries (R57, R58, R61, R72), the Checkpoint Table and the journal positions (R4, R5,
R21). -/

namespace Sys2Proof.Machine

/-! ### The Event Queue -/

/-- Sequence numbers run consecutively from head to newest, 0 skipped, and `next` follows the newest
(R171). -/
def consecutive (next : Nat) : List Event → Bool
  | [] => true
  | [e] => nextSeqAfter e.seq == next
  | e :: d :: rest => nextSeqAfter e.seq == d.seq && consecutive next (d :: rest)

/-- The queue holds at most 32 events, the 32nd being EVENTS_LOST (R173), and numbers them as R171
gives. -/
structure Events.Ok (q : Events) : Prop where
  next_range : 1 ≤ q.nextSeq ∧ q.nextSeq ≤ 65535
  seq_range : ∀ e ∈ q.queue, 1 ≤ e.seq ∧ e.seq ≤ 65535
  in_order : consecutive q.nextSeq q.queue = true
  bounded : q.queue.length ≤ 32
  reserved : q.queue.length = 32 → q.queue.getLast?.any (fun e => e.kind == .eventsLost) = true

/-- Several events offered one after another in a step (R174), the epoch counter being `counter`. -/
def Events.offers (q : Events) (counter : Nat) (rs : List Report) : Events :=
  rs.foldl (fun q r => q.offer counter r) q

/-! ### Bounded resources -/

/-- No write waits in CAPTURE_WAIT while a Capture Buffer entry is free (R71). -/
def State.capturesGranted (s : State) : Prop :=
  16 ≤ s.captures.length ∨ ∀ e ∈ s.waq, e.state ≠ .captureWait

/-- Every WAITING entry of the WAQ stands behind an entry of its line not yet issued (R57, R58). -/
def State.headsDecided (s : State) : Prop := nextHead [] s.waq = none

/-- The bounds of the WAQ (R56), the Capture Buffer (R70), the LTT (R65) and the M port (R146), the
grants of R71, and the order of the waiting set (R149). -/
structure State.ResourcesOk (s : State) : Prop where
  waq_bound : s.waq.length ≤ 32
  capture_bound : s.captures.length ≤ 16
  granted : s.capturesGranted
  slot_bound : s.mport.outstanding.length ≤ 64
  idents_used_once :
    (s.mport.outstanding.map (·.ident) ++ s.mport.withheld.map (·.ident)).Nodup
  ltt_sorted : s.ltt.Pairwise (· < ·)
  ltt_sets : ∀ l : LineIndex, (s.ltt.countP fun x => lttSet x == lttSet l) ≤ 4
  ages_sorted : s.mport.waiting.Pairwise fun x y => x.joined ≤ y.joined
  ages_past : ∀ r ∈ s.mport.waiting, r.joined ≤ s.mport.ageClock

/-! ### Modes and gate -/

/-- Outside JOURNALING no epoch is open, nothing holds the slot, nothing is owed and the countdown is
STOPPED (R1, R81, R90, R97); a BROKEN part is fenced with no release (R129); outside FENCE no release
is armed and the fence release timer does not run (R51, R53); a fault-owned operation is a rollback
under FENCE (R80, R50). -/
structure State.ModesOk (s : State) : Prop where
  no_epoch : s.epoch.mode ≠ .journaling → s.epoch.table = [] ∧ s.epoch.counter = 0
  no_operation : s.epoch.mode ≠ .journaling →
    s.ops.slot = none ∧ s.ops.owed = .empty ∧ s.timer.countdown = .stopped
  broken_fenced : s.epoch.mode = .broken →
    s.gate.state = .fence ∧ s.gate.armed = none ∧ s.gate.timer = none
  release_fenced : s.gate.state ≠ .fence → s.gate.armed = none ∧ s.gate.timer = none
  fault_fenced : ∀ sl, s.ops.slot = some sl → sl.source = .fault →
    sl.operation = .rollback ∧ s.gate.state = .fence

/-! ### The running command and operation -/

/-- The phase belongs to the operation (R81). -/
def Operation.hasPhase : Operation → Phase → Bool
  | .seal, .gather => true
  | .stop, .gather => true
  | .rollback, .drain => true
  | .rollback, .restore => true
  | .verify, .scan => true
  | _, _ => false

/-- The mailbox's command belongs to the operation in the slot (R80). -/
def OpCtl.hasCommand (o : OpCtl) : Bool := o.slot.any (·.command)

/-- The slot holds this operation. -/
def OpCtl.holds (o : OpCtl) (op : Operation) : Bool := o.slot.any (·.operation == op)

/-- CMD holds a code exactly while a command runs (R160), which is a READ_RECORD or belongs to the
slot; abort pending needs a running command (R92); the scan and the engine run exactly while VERIFY and
ROLLBACK hold the slot (R135, R112); the record is IN_PROGRESS only then (R132). -/
structure State.CommandOk (s : State) : Prop where
  running : s.mailbox.cmd ≠ 0 ↔ s.inspect.isSome = true ∨ s.ops.hasCommand = true
  one_owner : ¬(s.inspect.isSome = true ∧ s.ops.hasCommand = true)
  abort_needs_command : s.ops.abortPending = true → s.mailbox.cmd ≠ 0
  scan_runs : s.scan.isSome = s.ops.holds .verify
  engine_runs : s.engine.isSome = s.ops.holds .rollback
  verify_commanded : ∀ sl, s.ops.slot = some sl → sl.operation = .verify → sl.command = true
  phases : ∀ sl, s.ops.slot = some sl → sl.operation.hasPhase sl.phase = true
  in_progress : s.recovery.outcome = .inProgress → s.ops.holds .rollback = true

/-! ### The requests of the WAQ entries -/

/-- The requester and tag of a WAQ entry. -/
def WaqEntry.key (e : WaqEntry) : BitVec 4 × BitVec 6 := (e.txn.requester, e.txn.tag)

/-- The entry a FORWARD request belongs to. -/
def Owner.waqKey? : Owner → Option (BitVec 4 × BitVec 6)
  | .waq requester tag => some (requester, tag)
  | _ => none

/-- The entry a capture read belongs to. -/
def Owner.captureKey? : Owner → Option (BitVec 4 × BitVec 6)
  | .capture requester tag => some (requester, tag)
  | _ => none

/-- The entries in a state, by requester and tag. -/
def keysIn (waq : List WaqEntry) (st : WaqState) : List (BitVec 4 × BitVec 6) :=
  (waq.filter fun e => e.state == st).map WaqEntry.key

/-- Owners of the requests waiting at the arbiter. -/
def MPort.waitingOwners (m : MPort) : List Owner := m.waiting.map (·.owner)

/-- Owners of the outstanding requests. -/
def MPort.outstandingOwners (m : MPort) : List Owner := m.outstanding.map (·.request.owner)

/-- Every READY entry has one FORWARD request waiting, every ISSUED entry one outstanding, every
CAPTURING entry one capture read waiting or outstanding, and no other request names an entry (R57, R61,
R72); every entry that heads its chain has left WAITING (R58); only writes are PARKED, wait for a capture
or are CAPTURING (R57). -/
structure State.RequestsOk (s : State) : Prop where
  keys_once : (s.waq.map WaqEntry.key).Nodup
  ready : List.Perm (s.mport.waitingOwners.filterMap Owner.waqKey?) (keysIn s.waq .ready)
  issued : List.Perm (s.mport.outstandingOwners.filterMap Owner.waqKey?) (keysIn s.waq .issued)
  capturing : List.Perm
    ((s.mport.waitingOwners ++ s.mport.outstandingOwners).filterMap Owner.captureKey?)
    (keysIn s.waq .capturing)
  heads : s.headsDecided
  writes : ∀ e ∈ s.waq,
    e.state = .parked ∨ e.state = .captureWait ∨ e.state = .capturing → e.txn.kind = .write

/-! ### The Checkpoint Table -/

/-- The table of a JOURNALING part with these positions (R4, R5): 1 to D entries, the newest OPEN with
the open epoch's number and start at most head, the others COMMITTED, epochs rising, starts never
falling, the oldest start at tail. -/
structure TableOk (depth counter tail head : Nat) (t : List Checkpoint) : Prop where
  bounded : t.length ≤ depth
  newest : t.getLast?.any (fun c => c.state == .stillOpen && c.epoch == counter && c.start ≤ head) = true
  older : ∀ c ∈ t.dropLast, c.state = .committed
  epochs : t.Pairwise fun c d => c.epoch < d.epoch
  starts : t.Pairwise fun c d => c.start ≤ d.start
  oldest : t.head?.any (fun c => c.start == tail) = true

/-- The table satisfies R4 and R5. -/
def State.TableOk (s : State) : Prop :=
  Machine.TableOk s.journal.depth s.epoch.counter s.journal.tail s.journal.head s.epoch.table

/-- A Capture Buffer entry's causing write, while the entry is READING (R70). -/
def CaptureEntry.readingKey? (c : CaptureEntry) : Option (BitVec 4 × BitVec 6) :=
  if c.state = .reading then some (c.requester, c.tag) else none

/-- The positions of the records that the Capture Buffer holds. -/
def recordsHeld (captures : List CaptureEntry) : List Nat :=
  (captures.filterMap fun c => c.state.record?).map (·.position)

/-- The Checkpoint Table and the journal positions (R4, R5, R19, R21): tail, written and head in order,
occupancy at most C, and in JOURNALING the table of R4 and R5 with every start at most written. What keeps
them so: outside JOURNALING nothing is being captured, and in PASSTHROUGH the positions are 0 (R17, R21); a
record being written or ended out of order lies in [written, head) (R30); each CAPTURING entry has one
READING capture (R57, R70); a rollback holds the gate (R50), its target is an entry of the table (R113,
R119), and in RESTORE the conditions that ended DRAIN still hold (R117, R121). -/
structure State.LedgerOk (s : State) : Prop where
  positions : s.journal.tail ≤ s.journal.written ∧ s.journal.written ≤ s.journal.head ∧
    s.journal.head ≤ s.journal.tail + s.journal.capacity
  depth : 1 ≤ s.journal.depth ∧ s.journal.depth ≤ 4
  table : s.epoch.mode = .journaling → s.TableOk
  starts : ∀ c ∈ s.epoch.table, c.start ≤ s.journal.written
  passthrough : s.epoch.mode = .passthrough → s.journal.head = 0
  no_capture : s.epoch.mode ≠ .journaling → s.captures = []
  reading : List.Perm (s.captures.filterMap CaptureEntry.readingKey?) (keysIn s.waq .capturing)
  records_once : (recordsHeld s.captures ++ s.journal.ended).Nodup
  records_between : ∀ p ∈ recordsHeld s.captures ++ s.journal.ended,
    s.journal.written ≤ p ∧ p < s.journal.head
  rollback_holds : s.ops.holds .rollback = true → s.gate.state = .holdAll ∨ s.gate.state = .fence
  target : ∀ w, s.engine = some w →
    ∃ c ∈ s.epoch.table, c.epoch = w.targetEpoch ∧ c.start = w.targetStart
  walking : ∀ w sl, s.engine = some w → s.ops.slot = some sl → w.walk ≠ none → sl.phase = .restore
  restoring : ∀ sl, s.ops.slot = some sl → sl.phase = .restore →
    s.captures = [] ∧ s.journal.written = s.journal.head ∧ drained s.waq = true

/-! ### The codes, as numbers (R183, R170, R166)

Written out beside the codes the window and the reports are built with, so that a statement names the numbers
of the tables. -/

/-- Device mode (R183). -/
def modeCode : Mode → Nat
  | .passthrough => 0
  | .journaling => 1
  | .broken => 2

/-- Gate state, in STATUS and in RELEASE's data (R183). -/
def gateCode : GateState → Nat
  | .pass => 0
  | .holdTracked => 1
  | .holdAll => 2
  | .fence => 3

/-- Operation; 0 is none (R183). -/
def operationCode : Operation → Nat
  | .seal => 1
  | .stop => 2
  | .rollback => 3
  | .verify => 4

/-- Operation phase; 0 is none (R183). -/
def phaseCode : Phase → Nat
  | .gather => 1
  | .drain => 2
  | .restore => 3
  | .scan => 4

/-- Source and opened by (R183). -/
def sourceCode : Source → Nat
  | .start => 1
  | .timer => 2
  | .pressure => 3
  | .command => 4
  | .journalFault => 5
  | .rollback => 6
  | .fault => 7

/-- Entry state (R183). -/
def entryStateCode : EntryState → Nat
  | .stillOpen => 0
  | .committed => 1

/-- Entry condition (R183). -/
def conditionCode : Condition → Nat
  | .usable => 0
  | .damaged => 1
  | .lost => 2

/-- Outcome of the Last Recovery Record (R183). -/
def outcomeCode : RecoveryOutcome → Nat
  | .none => 0
  | .inProgress => 1
  | .completed => 2
  | .aborted => 3
  | .failedCheck => 4
  | .failedMemory => 5
  | .failedNoCheckpoint => 6
  | .interrupted => 7

/-- Trigger of the Last Recovery Record (R183). -/
def triggerCode : Trigger → Nat
  | .command => 0
  | .fault => 1

/-- Phase of the Last Recovery Record (R183). -/
def recoveryPhaseCode : RecoveryPhase → Nat
  | .none => 0
  | .drain => 1
  | .restore => 2
  | .settle => 3

/-- Event kind (R170). -/
def kindCode : EventKind → Nat
  | .commandDone => 1
  | .epochCommitted => 2
  | .checkpointDropped => 3
  | .journalFault => 4
  | .journalFull => 5
  | .captureFailed => 6
  | .writeRefused => 7
  | .memoryError => 8
  | .faultSeen => 9
  | .rollbackDone => 10
  | .rollbackFailed => 11
  | .verifyDone => 12
  | .gateReleased => 13
  | .epochLimit => 14
  | .eventsLost => 15

/-- Result; 0 is NONE, which no completion gives (R166). -/
def resultCode : CommandResult → Nat
  | .done => 1
  | .rejected => 2
  | .busy => 3
  | .aborted => 4
  | .preempted => 5
  | .failed => 6

/-- Reason (R166). -/
def reasonCode : Reason → Nat
  | .none => 0
  | .wrongMode => 1
  | .badParam => 2
  | .overlap => 3
  | .noSuchCheckpoint => 4
  | .checkpointDamaged => 5
  | .checkpointLost => 6
  | .epochLimit => 7
  | .targetLost => 8
  | .restoreFailed => 9
  | .gateBroken => 10

/-- Region mode (R165). -/
def regionModeCode : LineMode → Nat
  | .tracked => 1
  | .untracked => 2
  | .fenced => 3

/-- Unmapped mode, coded as a region mode (R164, R165). -/
def unmappedCode : Unmapped → Nat
  | .untracked => 2
  | .fenced => 3

/-! ### Commands -/

/-- A write transaction of one code byte reached CMD, the command was taken and completed in the same
step with this outcome; nothing else changed (R160, R161). -/
def State.finished (s : State) (code : Byte) (res : CommandResult) (reason : Reason)
    (data : BitVec 768) : State :=
  { s with
    i2c := { s.i2c with index := 0x04, pointer := 1 }
    mailbox :=
      { cmd := 0, param := s.mailbox.param, copy := s.mailbox.param,
        result := resultHeader res reason code ||| data }
    ops.abortPending := false
    events := s.events.offer s.epoch.counter (doneReport s.epoch.counter code res reason) }

/-- A write transaction of one code byte reached CMD and the command was taken; it runs on (R160). -/
def State.begun (s : State) (code : Byte) : State :=
  { s with
    i2c := { s.i2c with index := 0x04, pointer := 1 }
    mailbox := { s.mailbox with cmd := code, copy := s.mailbox.param } }

/-- The slot, gate, WAQ and countdown of a SEAL or STOP that starts on an idle slot (R102, R107). -/
def State.gathering (s : State) (op : Operation) (src : Source) (command : Bool) : State :=
  { s with
    ops := { s.ops with slot := some ⟨op, src, .gather, .empty, command, s.gate.state == .pass⟩ }
    gate := { s.gate with state := if s.gate.state = .pass then .holdTracked else s.gate.state }
    waq := s.waq.map fun e => { e with beforeHold := true }
    timer := { s.timer with countdown := s.timer.countdown.pause } }

/-- The arbiter's order of the classes, the highest first (R149). -/
def RequestClass.rank : RequestClass → Nat
  | .journal => 0
  | .capture => 1
  | .forward => 2
  | .service => 3

/-- The request is one the arbiter may grant next (R149): waiting, of the highest waiting class, and
none of its class joined before it. -/
def MPort.mayGrant (m : MPort) (r : Request) : Prop :=
  r ∈ m.waiting ∧
    (∀ x ∈ m.waiting, r.owner.cls.rank ≤ x.owner.cls.rank) ∧
    ∀ x ∈ m.waiting, x.owner.cls = r.owner.cls → r.joined ≤ x.joined

/-- The command ends the outstanding request of `ident` with the outcome `a`: an answer, or a timeout, which
its owner takes exactly as an ERROR answer and which withholds the identifier for 4 ms; `withheld` are the
identifiers withheld after it (R147, R148). -/
def State.requestEnds (s : State) (ident : BitVec 8) (a : MemAnswer) (c : Instr) (withheld : List Withheld) :
    Prop :=
  (c = .mPortAnswer ident a ∧ withheld = s.mport.withheld) ∨
    (c = .responseTimeout ident ∧ a = .error ∧ withheld = s.mport.withheld ++ [⟨ident, 400⟩])

/-- What a requester gets for the end of its FORWARD request (R152). -/
def replyFor (r : Request) : MemAnswer → Reply
  | .error => .error
  | .okay data =>
    match r.kind with
    | .write => .okay
    | .read => .okayData (addressedBytes r.addr r.size data)

/-- The slot and identifier of `ident` are freed and the transaction is answered; an ERROR queues
MEMORY_ERROR (R147, R152). -/
def State.forwarded (s : State) (ident : BitVec 8) (requester : BitVec 4) (tag : BitVec 6) (r : Request)
    (a : MemAnswer) : State :=
  { s with
    mport :=
      { s.mport with
        outstanding := s.mport.outstanding.filter fun o => o.ident != ident
        ageClock := s.mport.ageClock + 1 }
    answers := s.answers ++ [⟨requester, tag, replyFor r a⟩]
    events :=
      match a with
      | .error =>
        s.events.offer s.epoch.counter
          ⟨.memoryError, requester, s.epoch.counter, (lineOf r.addr).setWidth 64, 1⟩
      | .okay _ => s.events }

/-- The requests and answers of a fence that closes: from a gate that is not FENCE every entry that is
not CAPTURING or ISSUED is answered ERROR and leaves with its waiting request, in WAQ order, and the
CAPTURING entries are marked; from FENCE nothing is removed (R49, R50). -/
def fenceCloses (s t : State) : Prop :=
  if s.gate.state = .fence then t.waq = s.waq ∧ t.answers = s.answers ∧ t.mport = s.mport
  else
    t.waq = (s.waq.filter fun e => e.state == .capturing || e.state == .issued).map (fun e =>
      if e.state = .capturing then { e with marked := true } else e) ∧
    t.answers = s.answers ++ (s.waq.filter fun e => e.state != .capturing && e.state != .issued).map
      (fun e => ⟨e.txn.requester, e.txn.tag, .error⟩) ∧
    t.mport = { s.mport with waiting := s.mport.waiting.filter fun r => !r.owner.isWaq }

/-- The events of those removals, in WAQ order (R49, R174). -/
def fenceReports (s : State) : List Report :=
  if s.gate.state = .fence then []
  else (s.waq.filter fun e => e.state != .capturing && e.state != .issued).map fun e =>
    ⟨if e.txn.kind = .write then .writeRefused else .memoryError, e.txn.requester, s.epoch.counter,
      e.line.setWidth 64, 1⟩

/-- GATE_RELEASED: detail 1 names a RELEASE command and 2 the fence release timer (R52, R170). -/
def gateReleased (counter : Nat) (armed : Option ReleaseCause) : Report :=
  ⟨.gateReleased, 0, counter, match armed with | none => 0 | some .command => 1 | some .timer => 2, 1⟩

/-- The gate opens from FENCE for a release: to PASS, or on to HOLD_TRACKED for a SEAL or STOP in
GATHER, which records that it moved it; GATE_RELEASED names the release (R50, R52). -/
def State.openedBy (s : State) (cause : ReleaseCause) : State :=
  { s with
    gate := ⟨if s.ops.holds .seal || s.ops.holds .stop then .holdTracked else .pass, none, none⟩
    ops :=
      { s.ops with
        slot := s.ops.slot.map fun sl =>
          if sl.operation = .seal ∨ sl.operation = .stop then { sl with moved := true } else sl }
    events := s.events.offer s.epoch.counter (gateReleased s.epoch.counter (some cause)) }

/-- The COMMAND_DONE of the slot's command, if the mailbox's command belongs to it (R161, R174). -/
def completionOf (s : State) (sl : Slot) (counter : Nat) (res : CommandResult) (reason : Reason) :
    List Report :=
  if sl.command then [doneReport counter s.mailbox.cmd res reason] else []

/-- The mailbox after the operation's command has completed, if it belongs to the operation (R161). -/
def Mailbox.completed (m : Mailbox) (belongs : Bool) (res : CommandResult) (reason : Reason)
    (data : BitVec 768) : Mailbox :=
  if belongs then { m with cmd := 0, result := resultHeader res reason m.cmd ||| data } else m

/-- The tables after the shadow values are copied (R45). -/
def Regions.copied (r : Regions) : Regions :=
  { r with active := r.shadow, activeUnmapped := r.shadowUnmapped }

/-- The Epoch Timer after an epoch open (R96). -/
def EpochTimer.loaded (t : EpochTimer) : EpochTimer :=
  { t with
    activeInterval := t.nextInterval
    countdown := if t.nextInterval = 0 then .stopped else .running t.nextInterval }

/-- The SEAL that starts when the slot frees with these owed flags, if one qualifies, and whether it moves
the gate (R91, R50): the first of journal-fault-owed, pressure-owed at or above the high-water mark, and
timer-owed with EXTEND clear; the others that qualify join it. -/
def State.owedSeal (s : State) (owed : SealSources) (moves : Bool) : Option Slot :=
  let pressure := owed.pressure && decide (s.journal.capacity ≤ s.journal.head - s.journal.tail + 64)
  let timer := owed.timer && !s.timer.extend
  if owed.journalFault then some ⟨.seal, .journalFault, .gather, ⟨timer, pressure, false⟩, false, moves⟩
  else if pressure then some ⟨.seal, .pressure, .gather, ⟨timer, false, false⟩, false, moves⟩
  else if timer then some ⟨.seal, .timer, .gather, ⟨false, false, false⟩, false, moves⟩
  else none

/-- The slot has freed in JOURNALING with these owed flags, the gate being at `gate` and the countdown at
`countdown` before the examination, and the release conditions met as `opens` says: a seal that qualifies
holds the slot, timer-owed stays under EXTEND alone, the seal moves the gate from PASS and pauses the
countdown (R91, R102, R52). -/
def SlotFreed (s t : State) (owed : SealSources) (gate : Gate) (countdown : Countdown) (opens : Bool) :
    Prop :=
  t.ops.slot = s.owedSeal owed (gate.state == .pass || opens) ∧
  t.ops.owed = ⟨owed.timer && s.timer.extend, false, false⟩ ∧
  t.gate =
    (if opens then ⟨if t.ops.slot = none then .pass else .holdTracked, none, none⟩
    else
      { gate with state := if t.ops.slot ≠ none ∧ gate.state = .pass then .holdTracked else gate.state }) ∧
  t.timer =
    { s.timer with countdown := if t.ops.slot = none then countdown else countdown.pause }

/-- The gate as a rollback leaves it that has not failed its walk (R50, R51, R53). -/
def gateAfterRollback (s : State) (sl : Slot) : Gate :=
  if sl.source = .fault then
    { s.gate with
      armed := none
      timer := if s.policy.fenceDelay = 0 then none else some (s.policy.fenceDelay * 100) }
  else if sl.moved ∧ s.gate.state = .holdAll then { s.gate with state := .pass }
  else s.gate

/-- The fence that a command rollback found is opened as the rollback leaves the slot: a release is armed
and FAULT is low (R52, R127). -/
def opensAtLeave (s : State) (sl : Slot) : Bool :=
  sl.source != .fault && s.gate.state == .fence && s.gate.armed.isSome && !s.faultLevel

/-- The event of a fence that opens so (R52). -/
def openingReports (s : State) (sl : Slot) (counter : Nat) : List Report :=
  if opensAtLeave s sl then [gateReleased counter s.gate.armed] else []

/-- The owner is a read of VERIFY. -/
def Owner.isScan : Owner → Bool
  | .verifyImage => true
  | .verifyHeader => true
  | _ => false

/-- A request of VERIFY becomes one whose owner no longer needs it. -/
def Request.abandonScan (r : Request) : Request :=
  if r.owner.isScan then { r with owner := .abandoned } else r

/-- The M port after VERIFY's reads were abandoned (R141, R153): an outstanding one stays in its slot
without an owner; those still waiting stay so too, or they leave, which the manual leaves open (log entry
9). -/
def ScanAbandoned (m n : MPort) : Prop :=
  n = { m with
    waiting := n.waiting
    outstanding := m.outstanding.map fun o => { o with request := o.request.abandonScan } } ∧
  (n.waiting = m.waiting.map Request.abandonScan ∨ n.waiting = m.waiting.filter fun r => !r.owner.isScan)

/-- The M port after one owner's request was abandoned (R124, R153): an outstanding one stays in its slot
without an owner; one still waiting stays so too, or it leaves, which the manual leaves open (log entry 9). -/
def RequestAbandoned (owner : Owner) (m n : MPort) : Prop :=
  n = { m with
    waiting := n.waiting
    outstanding := m.outstanding.map fun o =>
      if o.request.owner = owner then { o with request := { o.request with owner := .abandoned } } else o } ∧
  ((n.waiting = m.waiting.map fun r => if r.owner = owner then { r with owner := .abandoned } else r) ∨
    n.waiting = m.waiting.filter fun r => r.owner != owner)

/-- VERIFY's result data, each field 8 bytes (R139, R167). -/
def scanFields (sc : Scan) : BitVec 768 :=
  field 4 8 sc.scanStart ||| field 12 8 sc.scanEnd ||| field 20 8 sc.position ||| field 28 8 sc.checked |||
    field 36 8 sc.skipped ||| field 44 8 sc.bad ||| field 52 8 sc.unreadable ||| field 60 8 sc.firstBad

/-- ROLLBACK's result data (R167). -/
def recoveryFields (r : LastRecovery) : BitVec 768 :=
  field 4 6 r.targetEpoch ||| field 12 6 r.newEpoch ||| field 20 8 r.restored ||| field 28 8 r.failingPosition

/-- The 11 bytes of a shadow entry in SET_REGION's result data: the flags byte, with valid in bit 0 and the
mode's code from bit 4 on, the base and the limit (R167). -/
def entryFields : RegionEntry → Nat
  | .notValid mode base limit =>
    regionModeCode mode * 2 ^ 4 + base.toNat * 2 ^ 8 + limit.toNat * 2 ^ 48
  | .valid mode base limit =>
    1 + regionModeCode mode * 2 ^ 4 + base.toNat * 2 ^ 8 + limit.toNat * 2 ^ 48

/-- SET_REGION's result data: the shadow table and the shadow unmapped mode (R167). -/
def regionFields (r : Regions) : BitVec 768 :=
  fieldsFrom 4 11 (r.shadow.toList.map entryFields) ||| field 92 1 (unmappedCode r.shadowUnmapped)

/-- SET_POLICY's result data (R167). -/
def policyFields (r : Regions) (p : Policy) : BitVec 768 :=
  field 4 1 (unmappedCode r.shadowUnmapped) ||| field 5 1 (unmappedCode r.activeUnmapped) |||
    field 6 1 (bit p.faultEnable) ||| field 7 1 p.faultDepth ||| field 8 2 p.fenceDelay

/-- VERIFY has ended before its scan end, with this result: its reads are abandoned, and its command
completes with what the scan reached (R141). -/
def ScanStopped (s t : State) (sc : Scan) (res : CommandResult) : Prop :=
  t.scan = none ∧ ScanAbandoned s.mport t.mport ∧
  t.mailbox = s.mailbox.completed true res .none (scanFields sc)

/-- What a read that has ended brought: its line, or none when it failed (R124, R136). -/
def ReadSlot.outcome : ReadSlot → Option (Option Line)
  | .got d => some (some d)
  | .failed => some none
  | _ => none

/-- What a read brings that ends with this answer: its line, or none at the third failure (R136). -/
def ReadSlot.endsWith (r : ReadSlot) (a : MemAnswer) : Option (Option Line) :=
  match r, a with
  | .asking _, .okay d => some (some d)
  | .asking n, .error => if 3 ≤ n then some none else none
  | _, _ => none

/-- A pair with the read of one line replaced. -/
def ReadPair.put (c : ReadPair) (line : RecordLine) (r : ReadSlot) : ReadPair :=
  match line with
  | .image => { c with image := r }
  | .header => { c with header := r }

/-- The read of a line has failed for the first or second time, in the attempt `n` (R124, R136). -/
def ReadPair.failsEarly (c : ReadPair) (line : RecordLine) (a : MemAnswer) (n : Nat) : Prop :=
  c.slot line = .asking n ∧ a = .error ∧ n < 3

/-- The answer ends the first of a pair's two reads, the other being asked for still; `r` is how it ended
(R136). -/
def ReadPair.endsFirst (c : ReadPair) (line : RecordLine) (a : MemAnswer) (r : ReadSlot) : Prop :=
  (∃ m, c.slot line.other = .asking m) ∧ ((c.slot line).endsWith a).isSome = true ∧
    r = (match a with | .okay d => .got d | .error => .failed)

/-- The answer ends the second of a pair's two reads, whichever that is; `image` and `header` are what the
two brought (R136, R143). -/
def ReadPair.endsBoth (c : ReadPair) (line : RecordLine) (a : MemAnswer) (image header : Option Line) :
    Prop :=
  match line with
  | .image => c.image.endsWith a = some image ∧ c.header.outcome = some header
  | .header => c.image.outcome = some image ∧ c.header.endsWith a = some header

/-- The Operation Controller has taken an automatic seal request in JOURNALING, `s` before it and `u` after it
(R83, R85, R87, R88, R141): on an idle slot a seal starts; a SEAL is joined; behind a STOP or ROLLBACK the
request is owed; VERIFY is cancelled, its command PREEMPTED, and a seal starts in its place. -/
def SealAsked (src : Source) (s u : State) : Prop :=
  match s.ops.slot with
  | none =>
    u = State.gathering { s with ops := { s.ops with owed := s.ops.owed.remove src } } .seal src false
  | some sl =>
    match sl.operation with
    | .seal =>
      u = { s with
        ops :=
          { s.ops with
            slot := some { sl with joined := sl.joined.add src }
            owed := s.ops.owed.remove src } }
    | .stop => u = { s with ops := { s.ops with owed := s.ops.owed.add src } }
    | .rollback => u = { s with ops := { s.ops with owed := s.ops.owed.add src } }
    | .verify =>
      ∃ sc, s.scan = some sc ∧ ScanAbandoned s.mport u.mport ∧
        u = State.gathering
          { s with
            ops := { s.ops with owed := s.ops.owed.remove src, abortPending := false }
            scan := none
            mport := u.mport
            mailbox := s.mailbox.completed true .preempted .none (scanFields sc)
            events := s.events.offer s.epoch.counter
              (doneReport s.epoch.counter s.mailbox.cmd .preempted .none) }
          .seal src false

/-- A rollback in DRAIN has failed with TARGET_LOST, `s` being the state in which its target is LOST or gone
(R119): nothing is restored, the gate goes as R50 gives, ROLLBACK_FAILED comes before the command's
COMMAND_DONE, the record reads FAILED_NO_CHECKPOINT, and the slot frees. The writes that the gate lets go are
decided in the same step (R48). The order of the events and the timer at a delay of 0 are the model's inference
(log entries 18, 20). -/
def DrainFailed (s t : State) (sl : Slot) (w : Walk) : Prop :=
  SlotFreed s t s.ops.owed (gateAfterRollback s sl) s.timer.countdown.resume (opensAtLeave s sl) ∧
  t.ops.abortPending = (if sl.command then false else s.ops.abortPending) ∧ t.engine = none ∧
  (∃ refusals : List Report, (∀ x ∈ refusals, x.kind = .writeRefused) ∧
    t.events = s.events.offers s.epoch.counter
      (refusals ++ ⟨.rollbackFailed, 0, w.targetEpoch, 0, 3⟩ ::
        completionOf s sl s.epoch.counter .failed .targetLost ++ openingReports s sl s.epoch.counter)) ∧
  (∃ answers, t.answers = s.answers ++ answers) ∧
  t.recovery = { s.recovery with outcome := .failedNoCheckpoint, phase := .drain } ∧
  t.mailbox = s.mailbox.completed sl.command .failed .targetLost (recoveryFields t.recovery) ∧
  (sl.source ≠ .fault → sl.moved = true → s.gate.state = .holdAll → ∀ x ∈ t.waq, x.state ≠ .parked) ∧
  (∀ x ∈ t.waq, ∃ y ∈ s.waq, x.txn = y.txn) ∧
  (∃ more, t.captures = s.captures ++ more) ∧ (∃ more, t.mport.waiting = s.mport.waiting ++ more) ∧
  t.mport.outstanding = s.mport.outstanding ∧ t.mport.withheld = s.mport.withheld ∧
  t.epoch = s.epoch ∧ t.journal = s.journal ∧ t.ltt = s.ltt ∧ t.regions = s.regions ∧
  t.policy = s.policy ∧ t.scan = s.scan ∧ t.inspect = s.inspect ∧ t.i2c = s.i2c ∧
  t.faultLevel = s.faultLevel ∧ t.resetPhase = s.resetPhase ∧ t.draws = s.draws ∧ t.pending = s.pending

/-- What marked entries LOST or dropped them left `a`, and the target of a rollback in DRAIN is examined then
(R118): with the target still good, or no such rollback, `a` is the end of the step, and otherwise the rollback
fails. That an allocation is finished first is the model's choice (log entry 30). -/
def TargetChecked (a t : State) : Prop :=
  ((∀ sl w, a.ops.slot = some sl → a.engine = some w → sl.operation = .rollback → sl.phase = .drain →
      targetHolds w.targetEpoch a.epoch.table = true) → t = a) ∧
  ∀ sl w, a.ops.slot = some sl → a.engine = some w → sl.operation = .rollback → sl.phase = .drain →
    targetHolds w.targetEpoch a.epoch.table = false → a.epoch.mode = .journaling → DrainFailed a t sl w

/-- These Capture Buffer entries have been granted: each one's write is CAPTURING, and its capture read has
joined the waiting set (R71, R72). -/
def State.withGrants (s : State) (granted : List CaptureEntry) : State :=
  { s with
    captures := s.captures ++ granted
    waq := s.waq.map fun y =>
      if granted.any (fun g => g.requester == y.txn.requester && g.tag == y.txn.tag) then
        { y with state := .capturing }
      else y
    mport :=
      { s.mport with
        waiting := s.mport.waiting ++ granted.map fun g =>
          ⟨.capture g.requester g.tag, .read, addrOfLine g.line, 64, 0, 0, s.mport.ageClock⟩ } }

/-- The grants went to writes in CAPTURE_WAIT, the oldest first in WAQ order (R71). -/
def State.grantsInOrder (s : State) (granted : List CaptureEntry) : Prop :=
  (∀ g ∈ granted, ∃ y ∈ s.waq, y.state = .captureWait ∧
    g = ⟨y.line, y.txn.requester, y.txn.tag, .reading⟩) ∧
  ((s.waq.map WaqEntry.key).Nodup →
    granted = ((s.waq.filter fun y => y.state == .captureWait).take granted.length).map fun y =>
      ⟨y.line, y.txn.requester, y.txn.tag, .reading⟩)

/-- The events of the drops that leave the last entry of the list the oldest: CHECKPOINT_DROPPED for every
entry before it, with the requester of the causing write, the epoch dropped, the start of the next entry and the
number of positions given up, at most 65,535 (R32). -/
def dropReports (requester : BitVec 4) : List Checkpoint → List Report
  | c :: d :: rest =>
    ⟨.checkpointDropped, requester, c.epoch, BitVec.ofNat 64 d.start, min (d.start - c.start) 65535⟩ ::
      dropReports requester (d :: rest)
  | _ => []

/-- The entries `gone` have been dropped, the oldest first, and `d` is the oldest now: tail is at its start
(R32). -/
def State.afterDrops (s : State) (requester : BitVec 4) (gone : List Checkpoint) (d : Checkpoint)
    (rest : List Checkpoint) : State :=
  { s with
    epoch := { s.epoch with table := d :: rest }
    journal := { s.journal with tail := if gone = [] then s.journal.tail else d.start }
    events := s.events.offers s.epoch.counter (dropReports requester (gone ++ [d])) }

/-- An allocation of `s` is under pressure with tail at this position (R31). -/
def State.pressedAt (s : State) (tail : Nat) : Prop :=
  s.journal.capacity ≤ s.journal.head + 1 - tail + 64

/-- A FORWARD request has been granted to the WAQ entry of this key: the request has left the waiting set, holds
a slot with its response timer at 1 ms, and the entry is ISSUED (R61, R146, R149). -/
def State.granted (s : State) (ident : BitVec 8) (r : Request) (key : BitVec 4 × BitVec 6) : State :=
  { s with
    waq := s.waq.map fun y => if y.key = key then { y with state := .issued } else y
    mport :=
      { s.mport with
        waiting := s.mport.waiting.erase r
        outstanding := s.mport.outstanding ++ [⟨ident, r, 100⟩]
        ageClock := s.mport.ageClock + 1 } }

/-- A WAQ entry takes a state, with these entries in the Capture Buffer, and a request for it joins the waiting
set (R57, R145). -/
def State.headTakes (s : State) (e : WaqEntry) (st : WaqState) (captures : List CaptureEntry)
    (requests : List Request) : State :=
  { s with
    waq := s.waq.map fun y => if y.key = e.key then { y with state := st } else y
    captures := captures
    mport := { s.mport with waiting := s.mport.waiting ++ requests } }

/-- The entry `e`, which has become the head of its chain in a step of age `age`, is decided, `s` being the
state without that decision (R43, R58, R59, R60, R66, R71, R72): a read is READY; a write is refused when its
line is FENCED, is READY when nothing is to be captured, and otherwise takes a free Capture Buffer entry or
waits for one. After a refusal the next of the chain is the head. -/
def HeadDecided (s t : State) (age : Nat) (e : WaqEntry) : Prop :=
  (e.txn.kind = .read →
    t = s.headTakes e .ready s.captures
      [⟨.waq e.txn.requester e.txn.tag, .read, e.txn.addr, e.txn.size, 0, 0, age⟩]) ∧
  (e.txn.kind = .write →
    (s.decodeLine e.line = .fenced →
      (∀ y ∈ t.waq, y.key ≠ e.key) ∧
      (∃ answers, t.answers = s.answers ++ ⟨e.txn.requester, e.txn.tag, .error⟩ :: answers) ∧
      ∃ refusals : List Report, (∀ x ∈ refusals, x.kind = .writeRefused) ∧
        t.events = s.events.offers s.epoch.counter
          (⟨.writeRefused, e.txn.requester, s.epoch.counter, e.line.setWidth 64, 1⟩ :: refusals)) ∧
    (s.decodeLine e.line = .untracked ∨
        (s.decodeLine e.line = .tracked ∧ (s.epoch.mode ≠ .journaling ∨ e.line ∈ s.ltt)) →
      t = s.headTakes e .ready s.captures
        [⟨.waq e.txn.requester e.txn.tag, .write, e.txn.addr, e.txn.size, e.txn.mask, e.txn.data, age⟩]) ∧
    (s.decodeLine e.line = .tracked → s.epoch.mode = .journaling → e.line ∉ s.ltt →
      (s.captures.length < 16 →
        t = s.headTakes e .capturing
          (s.captures ++ [⟨e.line, e.txn.requester, e.txn.tag, .reading⟩])
          [⟨.capture e.txn.requester e.txn.tag, .read, addrOfLine e.line, 64, 0, 0, age⟩]) ∧
      (16 ≤ s.captures.length → t = s.headTakes e .captureWait s.captures [])))

/-- Everything but the WAQ, the Capture Buffer, the M port, the answers and the events is as in `s`. -/
def State.sameBeside (s t : State) : Prop :=
  t = { s with
    waq := t.waq
    captures := t.captures
    mport := t.mport
    answers := t.answers
    events := t.events }

end Sys2Proof.Machine
end

