-- ==== Sys2Proof/WellFormed.lean ====
section
/-! DEFINITION. Which operand values belong to a row. A command outside these has a meaning all the
same (log entry 10); nothing in `exec` depends on this check. -/

namespace Sys2Proof

/-- The values written to CMD that are 0 or a command code (R160, 10.3). -/
def isCommandCode (v : Byte) : Bool :=
  v.toNat ≤ 0x0C || v == 0x0F#8

/-- The registers whose writes have rows of their own: TIMER_CTL, CMD, EVENT_ACK, ALERT_MASK (R182). -/
def hasOwnRow (index : Byte) : Bool :=
  index == 0x03#8 || index == 0x04#8 || index == 0x08#8 || index == 0x09#8

/-- The operands are values the spec gives the row. -/
def Instr.wellFormed : Instr → Bool
  | .pTransactionAccept t => 1 ≤ t.size && t.size ≤ 64
  | .invalidCommandCode v => !isCommandCode v
  | .registerWrite target bytes => !hasOwnRow target.index || bytes.isEmpty
  | .timerCtlWrite bytes => !bytes.isEmpty
  | .eventAck bytes => !bytes.isEmpty
  | .alertMaskWrite bytes => !bytes.isEmpty
  | .arbiterGrant _ _ => true
  | .mPortAnswer _ _ => true
  | .responseTimeout _ => true
  | .identifierWithholdExpiry _ => true
  | .epochTimerExpiry => true
  | .gatherEnd => true
  | .drainEnd => true
  | .faultEdge => true
  | .faultLevelFall => true
  | .fenceReleaseTimerExpiry => true
  | .powerOnReset => true
  | .resetNAssert => true
  | .resetNEnd _ _ _ => true
  | .setJournal => true
  | .setRegion => true
  | .setPolicy => true
  | .start => true
  | .stop => true
  | .seal => true
  | .rollback => true
  | .verify => true
  | .release => true
  | .recover => true
  | .readCheckpoints => true
  | .readRecord => true
  | .abort => true
  | .powerOnResetEnd _ _ _ => true

end Sys2Proof
end

