-- ==== Sys2Proof/Certificates/Slice0/Obligations.lean ====
section
/-! DEFINITION. The statements for the provers. Each docstring names the rules a statement formalises;
NOTES.md and OBLIGATIONS.json say which of them rest on a choice of the model. -/

open Sys2Proof Sys2Proof.Machine

/-! ### Steps, time and resets -/

/-- A step runs the command in front of the queue on the state with the queue's rest. -/
def Obligations.StepRunsTheCommandInFront : Prop :=
  ∀ (s : State) (c : Instr) (rest : List Instr), s.pending = c :: rest →
    step s = exec c { s with pending := rest }

/-- On an empty queue a running part counts one tick: each running timer goes down by one, and the
expiry of each timer with no tick left is queued. The model's choice (log entry 4) over R95, R53, R146. -/
def Obligations.AnIdleStepIsOneTick : Prop :=
  ∀ s : State, s.resetPhase = .running → s.pending = [] →
    ∃ t : State, step s = .next t ∧
      t = { s with timer := t.timer, gate := t.gate, mport := t.mport, pending := t.pending } ∧
      t.timer =
        { s.timer with
          countdown :=
            match s.timer.countdown with
            | .running n => .running (n - 1)
            | .paused n => .paused n
            | .stopped => .stopped } ∧
      t.gate = { s.gate with timer := s.gate.timer.map fun n => n - 1 } ∧
      t.mport.waiting = s.mport.waiting ∧ t.mport.ageClock = s.mport.ageClock ∧
      t.mport.outstanding = s.mport.outstanding.map (fun o => { o with timer := o.timer - 1 }) ∧
      t.mport.withheld = s.mport.withheld.map (fun w => { w with timer := w.timer - 1 }) ∧
      (Instr.epochTimerExpiry ∈ t.pending ↔ t.timer.countdown = .running 0) ∧
      (Instr.fenceReleaseTimerExpiry ∈ t.pending ↔ t.gate.timer = some 0) ∧
      (∀ i, Instr.responseTimeout i ∈ t.pending ↔
        ∃ o ∈ t.mport.outstanding, o.ident = i ∧ o.timer = 0) ∧
      ∀ i, Instr.identifierWithholdExpiry i ∈ t.pending ↔
        ∃ w ∈ t.mport.withheld, w.ident = i ∧ w.timer = 0

/-- POWER_ON_RESET and RESET_N_ASSERT give every block its reset values; RESET_N keeps the Last Recovery
Record, in which IN_PROGRESS becomes INTERRUPTED, and adds nothing but its level to a reset that holds (R180,
R133, R18, R37, R55, R79, R111, R154, R159, R181). The command queue and the draw counter are the model's own
and stay. What State.reset holds beyond the values listed, the counter, that RESET_N's level is kept through
power-on reset, and that RESET_N asserted twice changes nothing, are the model's (log entries 2, 3, 7, 22). -/
def Obligations.ResetsGiveTheResetValues : Prop :=
  (∀ s : State, exec .powerOnReset s =
    .next { State.reset with
      resetPhase :=
        .powerOn (match s.resetPhase with | .running => false | .resetN => true | .powerOn low => low)
      draws := s.draws
      pending := s.pending }) ∧
  (∀ s : State, s.resetPhase = .running →
    exec .resetNAssert s =
      .next { State.reset with
        resetPhase := .resetN
        recovery :=
          if s.recovery.outcome = .inProgress then { s.recovery with outcome := .interrupted }
          else s.recovery
        draws := s.draws
        pending := s.pending }) ∧
  (∀ s : State, s.resetPhase = .resetN → exec .resetNAssert s = .next s) ∧
  (∀ (s : State) (low : Bool), s.resetPhase = .powerOn low →
    exec .resetNAssert s = .next { s with resetPhase := .powerOn true }) ∧
  State.reset.epoch = { mode := .passthrough, counter := 0, table := [] } ∧
  State.reset.journal =
    { base := 0, capacity := 0, depth := 1, head := 0, written := 0, tail := 0, ended := [] } ∧
  State.reset.gate = { state := .pass, armed := none, timer := none } ∧
  State.reset.policy = { faultEnable := false, faultDepth := 0, fenceDelay := 0 } ∧
  State.reset.regions.activeUnmapped = .untracked ∧ State.reset.regions.shadowUnmapped = .untracked ∧
  (∀ e ∈ State.reset.regions.active.toList ++ State.reset.regions.shadow.toList,
    ∀ mode base limit, e ≠ RegionEntry.valid mode base limit) ∧
  (∀ l, State.reset.decodeLine l = .untracked) ∧
  State.reset.waq = [] ∧ State.reset.ltt = [] ∧ State.reset.captures = [] ∧
  State.reset.ops = { slot := none, owed := ⟨false, false, false⟩, abortPending := false } ∧
  State.reset.timer =
    { nextInterval := 0, extend := false, activeInterval := 0, countdown := .stopped } ∧
  State.reset.engine = none ∧
  State.reset.recovery = ⟨.none, .command, .none, 0, 0, 0, 0, 0, 0⟩ ∧
  State.reset.scan = none ∧ State.reset.inspect = none ∧
  State.reset.mport.waiting = [] ∧ State.reset.mport.outstanding = [] ∧
  State.reset.mport.withheld = [] ∧
  State.reset.i2c.index = 0x00 ∧ State.reset.i2c.pointer = 0 ∧
  State.reset.mailbox = { cmd := 0, param := 0, copy := 0, result := 0 } ∧
  State.reset.events = { queue := [], nextSeq := 1, alertMask := 0xFFFF }

/-- At the end of a reset the ADDR pins and the FAULT line are sampled, the first FAULT sample making no edge,
and the part runs, unless the other reset still holds it: power-on reset that ends with RESET_N low leaves the
part held until the line returns high (R155, R177, R180). That a RESET_N which ends during power-on reset has
the pins sampled, and that an end of a reset that does not hold the part changes nothing, are the model's (log
entries 3, 22). -/
def Obligations.AResetEnds : Prop :=
  (∀ (s u : State) (a b f : Bool),
    u = { s with i2c := { s.i2c with addr1 := a, addr0 := b }, faultLevel := f } →
    (s.resetPhase = .resetN →
      exec (.resetNEnd a b f) s = .next { u with resetPhase := .running } ∧
        exec (.powerOnResetEnd a b f) s = .next s) ∧
    (s.resetPhase = .powerOn false →
      exec (.powerOnResetEnd a b f) s = .next { u with resetPhase := .running } ∧
        exec (.resetNEnd a b f) s = .next s) ∧
    (s.resetPhase = .powerOn true →
      exec (.powerOnResetEnd a b f) s = .next { u with resetPhase := .resetN } ∧
        exec (.resetNEnd a b f) s = .next { u with resetPhase := .powerOn false }) ∧
    (s.resetPhase = .running →
      exec (.resetNEnd a b f) s = .next s ∧ exec (.powerOnResetEnd a b f) s = .next s)) ∧
  ∀ i : I2c, i.address = 0x2C#7 + (if i.addr1 then 2#7 else 0#7) + (if i.addr0 then 1#7 else 0#7)

/-- While a reset holds the part nothing but the reset's own steps changes it, no tick is counted and the
management port acknowledges no address (R155, R180). That such a command leaves the state as it is, is the
model's choice (log entry 3). -/
def Obligations.AHeldPartTakesNoStep : Prop :=
  ∀ s : State, s.resetPhase ≠ .running →
    (∀ c : Instr, c ≠ .powerOnReset → c ≠ .resetNAssert → (∀ a b f, c ≠ .resetNEnd a b f) →
      (∀ a b f, c ≠ .powerOnResetEnd a b f) → exec c s = .next s) ∧
    (s.pending = [] → step s = .next s) ∧
    ∀ address n, s.acknowledges address = false ∧ s.readTransaction address n = none

/-! ### The data path -/

/-- Back-pressure: HOLD_ALL, or a full WAQ outside FENCE, holds a transaction off (R40). That a transaction
held off leaves the whole state as it is, is the model's choice (log entry 3). -/
def Obligations.BackPressureHoldsOff : Prop :=
  ∀ (s : State) (t : Transaction), s.resetPhase = .running →
    s.gate.state = .holdAll ∨ (s.gate.state ≠ .fence ∧ 32 ≤ s.waq.length) →
    exec (.pTransactionAccept t) s = .next s

/-- A transaction that is not well formed, or any transaction under FENCE, is answered ERROR at
acceptance with WRITE_REFUSED or MEMORY_ERROR, and nothing else changes (R38, R47). That a transaction of
size 0 is not well formed is the model's choice (log entry 10). -/
def Obligations.ARefusalAtAcceptance : Prop :=
  ∀ (s : State) (t : Transaction), s.resetPhase = .running →
    s.gate.state = .fence ∨
      (s.gate.state ≠ .holdAll ∧ s.waq.length < 32 ∧
        (t.size < 1 ∨ 64 < offsetOf t.addr + t.size ∨ s.tagInUse t.requester t.tag = true)) →
    exec (.pTransactionAccept t) s =
      .next { s with
        answers := s.answers ++ [⟨t.requester, t.tag, .error⟩]
        events := s.events.offer s.epoch.counter
          ⟨if t.kind = .write then .writeRefused else .memoryError, t.requester, s.epoch.counter,
            t.line.setWidth 64, 1⟩ }

/-- A read to a line with no WAQ entry goes to the arbiter at once as a FORWARD request (R39, R150). -/
def Obligations.AReadPassesTheWaq : Prop :=
  ∀ (s : State) (t : Transaction), s.resetPhase = .running →
    s.gate.state = .pass ∨ s.gate.state = .holdTracked → s.waq.length < 32 →
    1 ≤ t.size → offsetOf t.addr + t.size ≤ 64 → s.tagInUse t.requester t.tag = false →
    t.kind = .read → (∀ e ∈ s.waq, e.line ≠ t.line) → s.capturesGranted →
    exec (.pTransactionAccept t) s =
      .next { s with
        mport :=
          { s.mport with
            waiting := s.mport.waiting ++
              [⟨.bypass t.requester t.tag, .read, t.addr, t.size, 0, 0, s.mport.ageClock⟩]
            ageClock := s.mport.ageClock + 1 } }

/-- A write whose chain has all been issued is decided when it is accepted, unless it is parked: FENCED
is refused; UNTRACKED, a mode other than JOURNALING, or an LTT hit makes it READY with its FORWARD
request; a miss takes a free Capture Buffer entry and asks for the capture read, or waits for one (R43,
R59, R60, R66, R71, R72). -/
def Obligations.AHeadWriteIsDecided : Prop :=
  ∀ (s : State) (t : Transaction), s.resetPhase = .running →
    s.gate.state = .pass ∨ (s.gate.state = .holdTracked ∧ s.decodeLine t.line ≠ .tracked) →
    s.waq.length < 32 → 1 ≤ t.size → offsetOf t.addr + t.size ≤ 64 →
    s.tagInUse t.requester t.tag = false → t.kind = .write →
    (∀ e ∈ s.waq, e.line = t.line → e.state = .issued) → s.headsDecided → s.capturesGranted →
    (s.decodeLine t.line = .fenced →
      exec (.pTransactionAccept t) s =
        .next { s with
          answers := s.answers ++ [⟨t.requester, t.tag, .error⟩]
          events := s.events.offer s.epoch.counter
            ⟨.writeRefused, t.requester, s.epoch.counter, t.line.setWidth 64, 1⟩
          mport := { s.mport with ageClock := s.mport.ageClock + 1 } }) ∧
    (s.decodeLine t.line = .untracked ∨
        (s.decodeLine t.line = .tracked ∧ (s.epoch.mode ≠ .journaling ∨ t.line ∈ s.ltt)) →
      exec (.pTransactionAccept t) s =
        .next { s with
          waq := s.waq ++ [⟨t, .ready, false, false⟩]
          mport :=
            { s.mport with
              waiting := s.mport.waiting ++
                [⟨.waq t.requester t.tag, .write, t.addr, t.size, t.mask, t.data, s.mport.ageClock⟩]
              ageClock := s.mport.ageClock + 1 } }) ∧
    (s.decodeLine t.line = .tracked → s.epoch.mode = .journaling → t.line ∉ s.ltt →
      (s.captures.length < 16 →
        exec (.pTransactionAccept t) s =
          .next { s with
            waq := s.waq ++ [⟨t, .capturing, false, false⟩]
            captures := s.captures ++ [⟨t.line, t.requester, t.tag, .reading⟩]
            mport :=
              { s.mport with
                waiting := s.mport.waiting ++
                  [⟨.capture t.requester t.tag, .read, addrOfLine t.line, 64, 0, 0, s.mport.ageClock⟩]
                ageClock := s.mport.ageClock + 1 } }) ∧
      (16 ≤ s.captures.length →
        exec (.pTransactionAccept t) s =
          .next { s with
            waq := s.waq ++ [⟨t, .captureWait, false, false⟩]
            mport := { s.mport with ageClock := s.mport.ageClock + 1 } }))

/-- A transaction that is not decided at acceptance takes its place in the WAQ: PARKED for a write to a
TRACKED line under HOLD_TRACKED, WAITING behind an entry of its line not yet issued, READY for a read
behind issued entries of its line alone (R39, R48, R59). -/
def Obligations.ATransactionJoinsItsChain : Prop :=
  ∀ (s : State) (t : Transaction), s.resetPhase = .running →
    s.gate.state = .pass ∨ s.gate.state = .holdTracked →
    s.waq.length < 32 → 1 ≤ t.size → offsetOf t.addr + t.size ≤ 64 →
    s.tagInUse t.requester t.tag = false → s.headsDecided → s.capturesGranted →
    (t.kind = .write → s.gate.state = .holdTracked → s.decodeLine t.line = .tracked →
      exec (.pTransactionAccept t) s =
        .next { s with
          waq := s.waq ++ [⟨t, .parked, false, false⟩]
          mport := { s.mport with ageClock := s.mport.ageClock + 1 } }) ∧
    ((∃ e ∈ s.waq, e.line = t.line ∧ e.state ≠ .issued) →
      t.kind = .read ∨ s.gate.state = .pass ∨ s.decodeLine t.line ≠ .tracked →
      exec (.pTransactionAccept t) s =
        .next { s with
          waq := s.waq ++ [⟨t, .waiting, false, false⟩]
          mport := { s.mport with ageClock := s.mport.ageClock + 1 } }) ∧
    (t.kind = .read → (∃ e ∈ s.waq, e.line = t.line) →
      (∀ e ∈ s.waq, e.line = t.line → e.state = .issued) →
      exec (.pTransactionAccept t) s =
        .next { s with
          waq := s.waq ++ [⟨t, .ready, false, false⟩]
          mport :=
            { s.mport with
              waiting := s.mport.waiting ++
                [⟨.waq t.requester t.tag, .read, t.addr, t.size, 0, 0, s.mport.ageClock⟩]
              ageClock := s.mport.ageClock + 1 } })

/-- With a slot, the identifier and a request free, the arbiter grants one request of the highest waiting
class, none of its class older; it leaves the waiting set and becomes outstanding with its response timer at
1 ms. A request of another class or a bypassing read changes nothing else. A WAQ entry becomes ISSUED, and the
next entry of its chain, if all entries before it have been issued, is decided in the same step; if there is
none, nothing else changes. Otherwise nothing is granted (R146, R149, R58, R59, R60, R61, R71, R72). That an
impossible grant changes nothing, and the choice among requests that joined together, are the model's (log
entries 3, 15). -/
def Obligations.TheArbiterGrants : Prop :=
  ∀ (s : State) (ident : BitVec 8) (tie : Nat), s.resetPhase = .running →
    (64 ≤ s.mport.outstanding.length ∨ s.mport.identFree ident = false ∨ s.mport.waiting = [] →
      exec (.arbiterGrant ident tie) s = .next s) ∧
    (s.mport.outstanding.length < 64 → s.mport.identFree ident = true → s.mport.waiting ≠ [] →
      (s.mport.waiting.Pairwise fun x y => x.joined ≤ y.joined) → s.capturesGranted →
      ∃ (r : Request) (t : State), exec (.arbiterGrant ident tie) s = .next t ∧ s.mport.mayGrant r ∧
        s.sameBeside t ∧ t.mport.withheld = s.mport.withheld ∧
        t.mport.outstanding = s.mport.outstanding ++ [⟨ident, r, 100⟩] ∧
        t.mport.ageClock = s.mport.ageClock + 1 ∧
        (r.owner.isWaq = false →
          t = { s with
            mport :=
              { s.mport with
                waiting := s.mport.waiting.erase r
                outstanding := t.mport.outstanding
                ageClock := t.mport.ageClock } }) ∧
        ∀ q g, r.owner = .waq q g →
          (∀ e ∈ t.waq, e.key = (q, g) → e.state = .issued) ∧ t.headsDecided ∧
          (∃ more, t.mport.waiting = s.mport.waiting.erase r ++ more ∧
            ∀ x ∈ more, x.joined = s.mport.ageClock) ∧
          ∀ x, s.waqEntry q g = some x → s.headsDecided → (s.waq.map WaqEntry.key).Nodup →
            ((∀ pre e post, s.waq = pre ++ e :: post → e.state = .waiting → e.line = x.line →
                ∃ y ∈ pre, y.line = e.line ∧ y.key ≠ (q, g) ∧ y.state ≠ .issued) →
              t = s.granted ident r (q, g)) ∧
            ∀ pre e post, s.waq = pre ++ e :: post → e.state = .waiting → e.line = x.line →
              (∀ y ∈ pre, y.line = e.line → y.key = (q, g) ∨ y.state = .issued) →
              HeadDecided (s.granted ident r (q, g)) t s.mport.ageClock e)

/-- The end of a FORWARD request, by an answer or by its timeout, frees its slot and answers its
transaction; a WAQ entry leaves; a timed-out identifier is withheld for 4 ms (R146, R147, R148, R152). -/
def Obligations.AForwardRequestEnds : Prop :=
  ∀ (s : State) (ident : BitVec 8) (r : Request) (q : BitVec 4) (g : BitVec 6),
    s.resetPhase = .running → s.mport.outstandingOf ident = some r → s.capturesGranted →
    (r.owner = .bypass q g →
      (∀ a, exec (.mPortAnswer ident a) s = .next (s.forwarded ident q g r a)) ∧
      exec (.responseTimeout ident) s =
        .next (State.forwarded { s with mport.withheld := s.mport.withheld ++ [⟨ident, 400⟩] }
          ident q g r .error)) ∧
    (r.owner = .waq q g →
      (∀ a, exec (.mPortAnswer ident a) s =
        .next (State.forwarded { s with waq := s.waq.filter fun e => e.key != (q, g) } ident q g r a)) ∧
      exec (.responseTimeout ident) s =
        .next (State.forwarded
          { s with
            waq := s.waq.filter fun e => e.key != (q, g)
            mport.withheld := s.mport.withheld ++ [⟨ident, 400⟩] } ident q g r .error))

/-- An answer whose identifier names no outstanding request is discarded and frees a withheld identifier;
the end of the 4 ms frees it too; a timeout of no request does nothing (R146, R148). The last is the
model's choice (log entry 3). -/
def Obligations.LateAnswersAreDiscarded : Prop :=
  ∀ (s : State) (ident : BitVec 8), s.resetPhase = .running →
    (s.mport.outstandingOf ident = none →
      (∀ a, exec (.mPortAnswer ident a) s =
        .next { s with mport.withheld := s.mport.withheld.filter fun w => w.ident != ident }) ∧
      exec (.responseTimeout ident) s = .next s) ∧
    exec (.identifierWithholdExpiry ident) s =
      .next { s with mport.withheld := s.mport.withheld.filter fun w => w.ident != ident }

/-! ### Captures and the journal -/

/-- An ERROR answer to a capture read, or its timeout, refuses its write with CAPTURE_FAILED, and any answer to
that of a marked write, or its timeout, refuses it with WRITE_REFUSED; the refused write leaves the WAQ, its
refusal is the step's first answer and first event, no entry that heads its chain is left undecided, which can
refuse a write of a FENCED line alone, and neither the journal, the table nor the LTT changes (R58, R75, R76,
R148). -/
def Obligations.AFailedCaptureRefusesItsWrite : Prop :=
  ∀ (s : State) (ident : BitVec 8) (r : Request) (q : BitVec 4) (g : BitVec 6) (e : WaqEntry)
    (a : MemAnswer) (kind : EventKind) (c : Instr) (withheld : List Withheld),
    s.resetPhase = .running → s.requestEnds ident a c withheld → s.mport.outstandingOf ident = some r →
    r.owner = .capture q g → s.waqEntry q g = some e →
    (e.marked = true ∧ kind = .writeRefused) ∨
      (e.marked = false ∧ a = .error ∧ kind = .captureFailed) →
    ∃ (t : State) (answers : List Answer) (reports : List Report),
      exec c s = .next t ∧ s.sameBeside t ∧ t.mport.withheld = withheld ∧
      t.answers = s.answers ++ ⟨q, g, .error⟩ :: answers ∧
      t.events = s.events.offers s.epoch.counter
        (⟨kind, q, s.epoch.counter, e.line.setWidth 64, 1⟩ :: reports) ∧
      (∀ x ∈ reports, x.kind = .writeRefused) ∧ (∀ x ∈ t.waq, x.key ≠ (q, g)) ∧ t.headsDecided ∧
      t.mport.outstanding = s.mport.outstanding.filter (fun o => o.ident != ident) ∧
      ∀ c ∈ t.captures, c.reads q g = false ∧ (c ∈ s.captures ∨ c.state = .reading)

/-- The record of an allocation at `head` (R23, R26). -/
def recordAt (s : State) (t : Transaction) (image : Line) : Record :=
  { position := s.journal.head, image := image, repeated := lttFull s.ltt t.line,
    header := buildHeader s.epoch.counter s.journal.head t.line t.requester (lttFull s.ltt t.line) image }

/-- What an allocation that is made leaves: head one further, the line in the LTT or a REPEAT counted,
the record held WRITING, the write READY, and the image write and the FORWARD request asked for (R26,
R28, R67, R73). -/
def Allocated (s t : State) (ident : BitVec 8) (w : Transaction) (image : Line) : Prop :=
  t.journal = { s.journal with head := s.journal.head + 1 } ∧
  t.epoch =
    { s.epoch with
      table := if lttFull s.ltt w.line then countRepeat s.epoch.table else s.epoch.table } ∧
  t.ltt = (if lttFull s.ltt w.line then s.ltt else insertLine w.line s.ltt) ∧
  t.captures = s.captures.map (fun c =>
    if c.reads w.requester w.tag then { c with state := .writing (recordAt s w image) .image 1 } else c) ∧
  t.waq = s.waq.map (fun x => if x.key = (w.requester, w.tag) then { x with state := .ready } else x) ∧
  t.mport =
    { s.mport with
      waiting := s.mport.waiting ++
        [⟨.waq w.requester w.tag, .write, w.addr, w.size, w.mask, w.data, s.mport.ageClock⟩,
          ⟨.journalImage s.journal.head, .write, s.journal.imageAddr s.journal.head, 64,
            BitVec.allOnes 64, image, s.mport.ageClock⟩]
      outstanding := s.mport.outstanding.filter fun o => o.ident != ident
      ageClock := s.mport.ageClock + 1 }

/-- A capture read answered OKAY below the high-water mark is allocated, and nothing else changes (R26,
R67, R73). That the image write is asked for in this step is the model's inference (log entry 16). -/
def Obligations.AnAllocationPlacesARecord : Prop :=
  ∀ (s : State) (ident : BitVec 8) (r : Request) (e : WaqEntry) (image : Line),
    s.resetPhase = .running → s.mport.outstandingOf ident = some r →
    r.owner = .capture e.txn.requester e.txn.tag → s.waqEntry e.txn.requester e.txn.tag = some e →
    e.marked = false → e.txn.kind = .write →
    s.journal.head + 1 - s.journal.tail + 64 < s.journal.capacity →
    (∀ w, s.engine = some w → targetHolds w.targetEpoch s.epoch.table = true) →
    (∀ c ∈ s.captures, c.holds s.journal.head = false) → s.capturesGranted →
    ∃ t : State, exec (.mPortAnswer ident (.okay image)) s = .next t ∧ Allocated s t ident e.txn image ∧
      t = { s with
        journal := t.journal, epoch := t.epoch, ltt := t.ltt, captures := t.captures, waq := t.waq,
        mport := t.mport }

/-- An allocation under pressure drops the oldest, COMMITTED entries one after another until it is relieved:
each drop moves tail to the next start and queues CHECKPOINT_DROPPED. The allocation is then made, and a
rollback in DRAIN whose target was dropped fails (R31, R32, R118, R119). That the allocation comes before that
failure, and that the image write is asked for in this step, are the model's (log entries 16, 30). -/
def Obligations.PressureDropsTheOldestCheckpoint : Prop :=
  ∀ (s dropped : State) (ident : BitVec 8) (r : Request) (e : WaqEntry) (image : Line)
    (gone : List Checkpoint) (d : Checkpoint) (rest : List Checkpoint),
    s.resetPhase = .running → s.mport.outstandingOf ident = some r →
    r.owner = .capture e.txn.requester e.txn.tag → s.waqEntry e.txn.requester e.txn.tag = some e →
    e.marked = false → e.txn.kind = .write →
    s.epoch.table = gone ++ d :: rest → gone ≠ [] → (∀ c ∈ gone, c.state = .committed) →
    s.pressedAt s.journal.tail → (∀ c ∈ gone.tail, s.pressedAt c.start) → ¬s.pressedAt d.start →
    dropped = s.afterDrops e.txn.requester gone d rest →
    (∀ x ∈ s.captures, x.holds s.journal.head = false) → s.capturesGranted →
    ∃ t a : State, exec (.mPortAnswer ident (.okay image)) s = .next t ∧
      Allocated dropped a ident e.txn image ∧
      a = { dropped with
        journal := a.journal, epoch := a.epoch, ltt := a.ltt, captures := a.captures, waq := a.waq,
        mport := a.mport } ∧
      TargetChecked a t

/-- An allocation under pressure first drops the COMMITTED entries that `gone` lists, which may be none. With
the OPEN entry alone and still under pressure it asks for a PRESSURE seal, which becomes owed behind a rollback
or a STOP. Below full occupancy it is then made in the reserve; at full occupancy it is refused: the write is
answered ERROR with JOURNAL_FULL, and positions, table and LTT stay. A rollback in DRAIN whose target was
dropped fails after it (R31, R32, R33, R67, R73, R74, R85, R118, R119). The image write of the record is asked
for in this step, what becomes of a cancelled VERIFY's reads that were still waiting is left free, the
COMMAND_DONE of that VERIFY comes first, and the failed rollback comes last (log entries 9, 16, 18, 30). -/
def Obligations.TheReserveAndTheFullJournal : Prop :=
  ∀ (s dropped : State) (ident : BitVec 8) (r : Request) (e : WaqEntry) (image : Line)
    (gone : List Checkpoint) (d : Checkpoint),
    s.resetPhase = .running → s.mport.outstandingOf ident = some r →
    r.owner = .capture e.txn.requester e.txn.tag → s.waqEntry e.txn.requester e.txn.tag = some e →
    e.marked = false → e.txn.kind = .write → s.epoch.mode = .journaling →
    s.epoch.table = gone ++ [d] → (∀ c ∈ gone, c.state = .committed) →
    s.pressedAt s.journal.tail → (∀ c ∈ (gone ++ [d]).tail, s.pressedAt c.start) →
    dropped = s.afterDrops e.txn.requester gone d [] →
    (s.ops.holds .verify = true → s.scan.isSome = true) →
    (s.journal.head - dropped.journal.tail < s.journal.capacity →
      (∀ x ∈ s.captures, x.holds s.journal.head = false) → s.capturesGranted →
      ∃ t a u : State, exec (.mPortAnswer ident (.okay image)) s = .next t ∧
        SealAsked .pressure dropped u ∧ Allocated u a ident e.txn image ∧
        a = { u with
          journal := a.journal, epoch := a.epoch, ltt := a.ltt, captures := a.captures, waq := a.waq,
          mport := a.mport } ∧
        TargetChecked a t) ∧
    (s.journal.head = dropped.journal.tail + s.journal.capacity →
      ∃ (t a u : State) (answers : List Answer) (reports : List Report),
        exec (.mPortAnswer ident (.okay image)) s = .next t ∧ SealAsked .pressure dropped u ∧
        u.sameBeside a ∧
        a.answers = s.answers ++ ⟨e.txn.requester, e.txn.tag, .error⟩ :: answers ∧
        a.events = u.events.offers s.epoch.counter
          (⟨.journalFull, e.txn.requester, s.epoch.counter, e.line.setWidth 64, 1⟩ :: reports) ∧
        (∀ x ∈ reports, x.kind = .writeRefused) ∧ (∀ x ∈ a.waq, x.key ≠ e.key) ∧
        (∀ x ∈ a.captures, x.reads e.txn.requester e.txn.tag = false) ∧ a.headsDecided ∧
        a.mport.outstanding = u.mport.outstanding.filter (fun o => o.ident != ident) ∧
        TargetChecked a t)

/-- After the image write of a record is answered OKAY its header line is requested, with the 48 padding
bytes zero (R23, R28). -/
def Obligations.TheHeaderFollowsTheImage : Prop :=
  ∀ (s : State) (ident : BitVec 8) (r : Request) (p : Nat) (c : CaptureEntry) (rec : Record) (n : Nat)
    (d : Line),
    s.resetPhase = .running → s.mport.outstandingOf ident = some r → r.owner = .journalImage p →
    s.captures.find? (·.holds p) = some c → c.state = .writing rec .image n → s.capturesGranted →
    exec (.mPortAnswer ident (.okay d)) s =
      .next { s with
        captures := s.captures.map fun x =>
          if x.holds p then { x with state := .writing rec .header 1 } else x
        mport :=
          { s.mport with
            waiting := s.mport.waiting ++
              [⟨.journalHeader p, .write, s.journal.headerAddr p, 64, BitVec.allOnes 64,
                rec.header.setWidth 512, s.mport.ageClock⟩]
            outstanding := s.mport.outstanding.filter fun o => o.ident != ident
            ageClock := s.mport.ageClock + 1 } }

/-- When the header write of a record is answered OKAY its writing ends: written advances over exactly
the ended positions from where it stood, and the Capture Buffer entry is freed and granted to the oldest write
that waits for one (R28, R30, R70, R71, R72). -/
def Obligations.WrittenPassesTheEndedRecords : Prop :=
  ∀ (s : State) (ident : BitVec 8) (r : Request) (p : Nat) (c : CaptureEntry) (rec : Record) (n : Nat)
    (d : Line),
    s.resetPhase = .running → s.mport.outstandingOf ident = some r → r.owner = .journalHeader p →
    s.captures.find? (·.holds p) = some c → c.state = .writing rec .header n →
    ∃ (t : State) (granted : List CaptureEntry), exec (.mPortAnswer ident (.okay d)) s = .next t ∧
      s.journal.written ≤ t.journal.written ∧
      (∀ x, s.journal.written ≤ x → x < t.journal.written → x = p ∨ x ∈ s.journal.ended) ∧
      t.journal.written ≠ p ∧ t.journal.written ∉ s.journal.ended ∧
      (∀ x, x ∈ t.journal.ended ↔
        (x = p ∨ x ∈ s.journal.ended) ∧ ¬(s.journal.written ≤ x ∧ x < t.journal.written)) ∧
      s.grantsInOrder granted ∧ t.capturesGranted ∧ t.mport.ageClock = s.mport.ageClock + 1 ∧
      { t with mport := { t.mport with ageClock := s.mport.ageClock } } = State.withGrants
        { s with
          journal := { s.journal with written := t.journal.written, ended := t.journal.ended }
          captures := s.captures.filter fun x => !x.holds p
          mport :=
            { s.mport with outstanding := s.mport.outstanding.filter fun o => o.ident != ident } }
        granted

/-- A failed first or second attempt of a record's line is requested again at once, an attempt failing by an
ERROR answer or by its timeout. The third failure is a journal fault: every entry LOST, JOURNAL_FAULT queued
first, the record ended, its Capture Buffer entry freed and granted again, and a seal asked for, by the rows
of R36: it starts on an idle slot, joins a SEAL, is owed behind a STOP or a rollback, and cancels VERIFY and
starts in its place. A rollback in DRAIN then fails with TARGET_LOST and restores nothing, its gate goes as
R50 gives, and the seal it owed starts as it leaves the slot (R29, R35, R36, R85, R87, R91, R118, R119, R141,
R148). The order of the events, and that the timer stops where the fence delay is 0, are the model's inference
(log entries 18, 20), and what becomes of VERIFY's reads that were still waiting is left free (log entry
9). -/
def Obligations.ALineWriteIsTriedThreeTimes : Prop :=
  ∀ (s : State) (ident : BitVec 8) (r : Request) (p : Nat) (c : CaptureEntry) (rec : Record)
    (line : RecordLine) (n : Nat) (x : Instr) (withheld : List Withheld),
    s.resetPhase = .running → s.requestEnds ident .error x withheld →
    s.mport.outstandingOf ident = some r →
    r.owner = (match line with | .image => .journalImage p | .header => .journalHeader p) →
    s.captures.find? (·.holds p) = some c → c.state = .writing rec line n → rec.position = p →
    (n < 3 → s.capturesGranted →
      exec x s =
        .next { s with
          captures := s.captures.map fun x =>
            if x.holds p then { x with state := .writing rec line (n + 1) } else x
          mport :=
            { s.mport with
              waiting := s.mport.waiting ++
                [⟨match line with | .image => .journalImage p | .header => .journalHeader p, .write,
                  s.journal.lineAddr p line, 64, BitVec.allOnes 64,
                  match line with | .image => rec.image | .header => rec.header.setWidth 512,
                  s.mport.ageClock⟩]
              outstanding := s.mport.outstanding.filter fun o => o.ident != ident
              withheld := withheld
              ageClock := s.mport.ageClock + 1 } }) ∧
    (3 ≤ n → s.epoch.mode = .journaling → (s.ops.holds .verify = true → s.scan.isSome = true) →
      ∃ (t v u : State) (granted : List CaptureEntry), exec x s = .next t ∧
        v = State.withGrants
          { s with
            epoch :=
              { s.epoch with table := s.epoch.table.map fun x => { x with condition := Condition.lost } }
            events := s.events.offer s.epoch.counter
              ⟨.journalFault, c.requester, headerEpoch rec.header, BitVec.ofNat 64 p,
                match line with | .image => 1 | .header => 2⟩
            journal := { s.journal with written := v.journal.written, ended := v.journal.ended }
            captures := s.captures.filter fun x => !x.holds p
            mport :=
              { s.mport with
                outstanding := s.mport.outstanding.filter fun o => o.ident != ident
                withheld := withheld } }
          granted ∧
        s.grantsInOrder granted ∧ t.capturesGranted ∧ s.journal.written ≤ v.journal.written ∧ v.journal.written ≠ p ∧
        SealAsked .journalFault v u ∧
        TargetChecked { u with mport := { u.mport with ageClock := s.mport.ageClock + 1 } } t)

/-! ### Sealing and stopping -/

/-- An expiry of the RUNNING countdown is skipped in an empty epoch, owed under EXTEND, and otherwise a
TIMER request that starts a seal, joins one, is owed behind a STOP or ROLLBACK, or cancels VERIFY, whose
command completes PREEMPTED with its reads abandoned, and starts a seal in its place (R98, R83, R85, R87,
R88, R141). What becomes of those reads that were still waiting is left free (log entry 9). -/
def Obligations.TheEpochTimerExpires : Prop :=
  ∀ (s : State) (n : Nat) (c : Checkpoint), s.resetPhase = .running →
    s.timer.countdown = .running n → s.epoch.table.getLast? = some c →
    (c.start = s.journal.head →
      exec .epochTimerExpiry s =
        .next { s with timer.countdown := .running s.timer.activeInterval }) ∧
    (c.start ≠ s.journal.head → s.timer.extend = true →
      exec .epochTimerExpiry s =
        .next { s with timer.countdown := .stopped, ops.owed.timer := true }) ∧
    (c.start ≠ s.journal.head → s.timer.extend = false → s.epoch.mode = .journaling →
      (s.ops.slot = none →
        exec .epochTimerExpiry s =
          .next ({ s with timer.countdown := .stopped, ops.owed.timer := false }.gathering .seal .timer
            false)) ∧
      (∀ sl, s.ops.slot = some sl → sl.operation = .seal →
        exec .epochTimerExpiry s =
          .next { s with
            timer := { s.timer with countdown := .stopped }
            ops :=
              { s.ops with
                owed := { s.ops.owed with timer := false }
                slot := some { sl with joined := { sl.joined with timer := true } } } }) ∧
      (∀ sl, s.ops.slot = some sl → sl.operation = .stop ∨ sl.operation = .rollback →
        exec .epochTimerExpiry s =
          .next { s with timer.countdown := .stopped, ops.owed.timer := true }) ∧
      (∀ sl sc, s.ops.slot = some sl → sl.operation = .verify → s.scan = some sc →
        ∃ t : State, exec .epochTimerExpiry s = .next t ∧ ScanStopped s t sc .preempted ∧
          t = State.gathering
            { s with
              timer := { s.timer with countdown := .stopped }
              ops :=
                { s.ops with owed := { s.ops.owed with timer := false }, abortPending := false }
              scan := none
              mport := t.mport
              mailbox := t.mailbox
              events := s.events.offer s.epoch.counter
                (doneReport s.epoch.counter s.mailbox.cmd .preempted .none) }
            .seal .timer false))

/-- The SEAL command is refused outside JOURNALING, starts a seal on an idle slot, joins a running seal,
and is BUSY behind a STOP or ROLLBACK (R101, R102, R84, R87). The STOP command is DONE at once in
PASSTHROUGH, refused in BROKEN, starts on an idle slot, and is BUSY behind a SEAL or ROLLBACK (R107). The
port's index and pointer are those after the one code byte written to CMD (R156). BUSY behind an operation
whose command the mailbox would hold, as a STOP or a command rollback, is the model's choice (log entry
27). -/
def Obligations.TheSealAndStopCommands : Prop :=
  ∀ s : State, s.resetPhase = .running → s.mailbox.cmd = 0 →
    (s.epoch.mode ≠ .journaling → exec .seal s = .next (s.finished 0x06 .rejected .wrongMode 0)) ∧
    (s.epoch.mode = .journaling → s.ops.slot = none →
      exec .seal s = .next ((s.begun 0x06).gathering .seal .command true)) ∧
    (∀ sl, s.epoch.mode = .journaling → s.ops.slot = some sl → sl.operation = .seal →
      exec .seal s =
        .next { s.begun 0x06 with ops := { s.ops with slot := some { sl with command := true } } }) ∧
    (∀ sl, s.epoch.mode = .journaling → s.ops.slot = some sl →
      sl.operation = .stop ∨ sl.operation = .rollback →
      exec .seal s = .next (s.finished 0x06 .busy .none 0)) ∧
    (s.epoch.mode = .passthrough → exec .stop s = .next (s.finished 0x05 .done .none 0)) ∧
    (s.epoch.mode = .broken → exec .stop s = .next (s.finished 0x05 .rejected .wrongMode 0)) ∧
    (s.epoch.mode = .journaling → s.ops.slot = none →
      exec .stop s = .next ((s.begun 0x05).gathering .stop .command true)) ∧
    (∀ sl, s.epoch.mode = .journaling → s.ops.slot = some sl →
      sl.operation = .seal ∨ sl.operation = .rollback →
      exec .stop s = .next (s.finished 0x05 .busy .none 0))

/-- GATHER's three conditions (R103, R63). -/
def GatherEnded (s : State) : Prop :=
  (∀ e ∈ s.waq, e.beforeHold = true → e.state = .parked) ∧ s.captures = [] ∧
    s.journal.written = s.journal.head

/-- What the ending of a SEAL or STOP leaves of slot, gate and mailbox, and what it does not touch:
the gate goes back to PASS if the operation moved it and it is HOLD_TRACKED, no write then stays PARKED,
and the slot is idle with nothing owed (R50, R105, R106, R109). -/
def HoldEnded (s t : State) (sl : Slot) : Prop :=
  t.ops =
    { slot := none, owed := ⟨false, false, false⟩,
      abortPending := if sl.command then false else s.ops.abortPending } ∧
  t.gate =
    { s.gate with
      state := if sl.moved ∧ s.gate.state = .holdTracked then .pass else s.gate.state } ∧
  (sl.moved = true → s.gate.state = .holdTracked → ∀ e ∈ t.waq, e.state ≠ .parked) ∧
  t.resetPhase = s.resetPhase ∧ t.policy = s.policy ∧ t.engine = s.engine ∧ t.recovery = s.recovery ∧
  t.scan = s.scan ∧ t.inspect = s.inspect ∧ t.i2c = s.i2c ∧ t.faultLevel = s.faultLevel ∧
  t.draws = s.draws ∧ t.pending = s.pending ∧ t.mport.outstanding = s.mport.outstanding ∧
  t.mport.withheld = s.mport.withheld ∧ ∃ answers, t.answers = s.answers ++ answers

/-- The undecided writes at an epoch open from `s` to `t`, the fourth of the epoch-open actions (R12, R62): a
write that is READY or waits for a capture is decided by the new table and the empty LTT, so none is READY for a
TRACKED line; one that is not READY again has lost its FORWARD request; an entry leaves only as a write refused
because its line is FENCED; a READY read keeps its place and its request. Free Capture Buffer entries have been
granted (R71). -/
def Redecided (s t : State) : Prop :=
  t.capturesGranted ∧
  (∀ e ∈ t.waq, e.txn.kind = .write →
    (e.state = .ready → t.decodeLine e.line = .untracked) ∧
    (e.state = .captureWait → t.decodeLine e.line = .tracked)) ∧
  (∀ e ∈ s.waq, (∃ x ∈ t.waq, x.txn = e.txn) ∨
    (e.txn.kind = .write ∧ t.decodeLine e.line = .fenced ∧
      ⟨e.txn.requester, e.txn.tag, .error⟩ ∈ t.answers)) ∧
  (∀ e ∈ s.waq, e.txn.kind = .write → e.state = .ready ∨ e.state = .captureWait →
    ∀ x ∈ t.waq, x.txn = e.txn → x.state ≠ .ready →
      ∀ r ∈ t.mport.waiting, r.owner ≠ .waq e.txn.requester e.txn.tag) ∧
  ∀ e ∈ s.waq, e.txn.kind = .read → e.state = .ready →
    (∃ x ∈ t.waq, x = { e with beforeHold := x.beforeHold }) ∧
      ∀ r ∈ s.mport.waiting, r.owner = .waq e.txn.requester e.txn.tag → r ∈ t.mport.waiting

/-- GATHER_END of a seal below the epoch limit commits: the OPEN entry becomes COMMITTED, LOST entries go,
the new OPEN entry opens at head, age retires the oldest beyond the depth, tail follows, the four epoch-open
actions run, EPOCH_COMMITTED is the step's first event, and the table satisfies R4 and R5 (R12, R13, R14,
R62, R105). The order of the events and their epoch field are the model's inference (log entries 18, 19). -/
def Obligations.ASealCommits : Prop :=
  ∀ (s : State) (sl : Slot) (c : Checkpoint), s.resetPhase = .running → s.ops.slot = some sl →
    sl.operation = .seal → GatherEnded s → s.epoch.counter < 2 ^ 48 - 1 →
    s.epoch.table.getLast? = some c → s.TableOk →
    ∃ (t : State) (refusals : List Report), exec .gatherEnd s = .next t ∧ HoldEnded s t sl ∧ t.TableOk ∧
      t.epoch.mode = s.epoch.mode ∧ t.epoch.counter = s.epoch.counter + 1 ∧
      (∃ k,
        t.epoch.table =
          (((s.epoch.table.dropLast ++ [{ c with state := .committed }]).filter fun x =>
            x.condition != Condition.lost) ++
            [⟨s.epoch.counter + 1, s.journal.head, .stillOpen, .usable, sl.source, 0⟩]).drop k ∧
        (k ≠ 0 → t.epoch.table.length = s.journal.depth)) ∧
      t.journal = { s.journal with tail := t.journal.tail } ∧ t.ltt = [] ∧
      t.regions = s.regions.copied ∧ t.timer = s.timer.loaded ∧
      (s.epoch.mode = .journaling → (s.waq.map WaqEntry.key).Nodup → Redecided s t) ∧
      t.events = s.events.offers (s.epoch.counter + 1)
        (⟨.epochCommitted, 0, c.epoch, BitVec.ofNat 64 (s.journal.head - c.start),
          min c.repeats 65535⟩ ::
            (refusals ++ completionOf s sl (s.epoch.counter + 1) .done .none)) ∧
      (∀ x ∈ refusals, x.kind = .writeRefused) ∧
      t.mailbox = s.mailbox.completed sl.command .done .none
        (field 4 6 c.epoch ||| field 12 6 (s.epoch.counter + 1))

/-- GATHER_END of a seal at the epoch limit: nothing is committed, EPOCH_LIMIT is the step's first event,
the countdown stops, and a SEAL command completes REJECTED (R15, R106). The order of the events is the
model's inference (log entry 18). -/
def Obligations.ASealEndsAtTheEpochLimit : Prop :=
  ∀ (s : State) (sl : Slot), s.resetPhase = .running → s.ops.slot = some sl → sl.operation = .seal →
    GatherEnded s → s.epoch.counter = 2 ^ 48 - 1 →
    ∃ (t : State) (refusals : List Report),
      exec .gatherEnd s = .next t ∧ HoldEnded s t sl ∧ t.epoch = s.epoch ∧
      t.journal = s.journal ∧ t.ltt = s.ltt ∧ t.regions = s.regions ∧
      t.timer = { s.timer with countdown := .stopped } ∧
      t.events = s.events.offers s.epoch.counter
        (⟨.epochLimit, 0, s.epoch.counter, BitVec.ofNat 64 s.epoch.counter, 1⟩ ::
          (completionOf s sl s.epoch.counter .rejected .epochLimit ++ refusals)) ∧
      (∀ x ∈ refusals, x.kind = .writeRefused) ∧
      t.mailbox = s.mailbox.completed sl.command .rejected .epochLimit (field 4 6 s.epoch.counter)

/-- GATHER_END of a STOP discards: table and counter empty, positions 0 with the geometry kept, LTT
cleared, shadow values copied, mode PASSTHROUGH, and the STOP command completes DONE with counter and head
as they were (R109, R17). The epoch field of its events is the model's inference (log entry 19). -/
def Obligations.AStopDiscards : Prop :=
  ∀ (s : State) (sl : Slot), s.resetPhase = .running → s.ops.slot = some sl → sl.operation = .stop →
    GatherEnded s →
    ∃ (t : State) (refusals : List Report), exec .gatherEnd s = .next t ∧ HoldEnded s t sl ∧
      t.epoch = { mode := .passthrough, counter := 0, table := [] } ∧
      t.journal = { s.journal with head := 0, written := 0, tail := 0, ended := [] } ∧ t.ltt = [] ∧
      t.regions = s.regions.copied ∧ t.timer = { s.timer with countdown := .stopped } ∧
      t.events = s.events.offers 0 (refusals ++ completionOf s sl 0 .done .none) ∧
      (∀ x ∈ refusals, x.kind = .writeRefused) ∧
      t.mailbox = s.mailbox.completed sl.command .done .none
        (field 4 6 s.epoch.counter ||| field 12 8 s.journal.head)

/-- ABORT: with no command running it changes nothing but the port's index and pointer; a running command
gets abort pending, which READ_RECORD and a joined SEAL hold (R92, R160, R163); a SEAL started by the
command, or a STOP, ends in GATHER with the epoch open, the countdown resumed and nothing discarded (R92,
R106, R110), a command ROLLBACK ends in DRAIN with nothing restored and its gate given back (R120), and
VERIFY ends with its reads abandoned (R141). The slot frees, and the seal that the owed flags and the sources
joined to the aborted seal qualify starts in the same step (R91). The order of the events is the model's
inference (log entry 18), and what becomes of VERIFY's reads that were still waiting is left free (log entry
9). -/
def Obligations.TheAbortCommand : Prop :=
  ∀ s : State, s.resetPhase = .running →
    (s.mailbox.cmd = 0 ∨ s.ops.abortPending = true →
      exec .abort s = .next { s with i2c := { s.i2c with index := 0x04, pointer := 1 } }) ∧
    (s.mailbox.cmd ≠ 0 → s.ops.abortPending = false →
      s.ops.slot = none ∨
        (∃ sl, s.ops.slot = some sl ∧
          (sl.command = false ∨ (sl.operation = .seal ∧ sl.source ≠ .command) ∨
            (sl.operation = .rollback ∧ (sl.source = .fault ∨ sl.phase = .restore)))) →
      exec .abort s =
        .next { s with
          i2c := { s.i2c with index := 0x04, pointer := 1 }
          ops := { s.ops with abortPending := true } }) ∧
    (∀ sl, s.mailbox.cmd ≠ 0 → s.ops.abortPending = false → s.ops.slot = some sl →
      sl.command = true → (sl.operation = .seal ∧ sl.source = .command) ∨ sl.operation = .stop →
      s.epoch.mode = .journaling →
      ∃ (t : State) (reports : List Report) (answers : List Answer),
        exec .abort s = .next t ∧
        t = { s with
          i2c := { s.i2c with index := 0x04, pointer := 1 }
          ops := t.ops, gate := t.gate, timer := t.timer, mailbox := t.mailbox, events := t.events
          answers := t.answers, waq := t.waq, captures := t.captures
          mport :=
            { s.mport with waiting := t.mport.waiting, ageClock := s.mport.ageClock + 1 } } ∧
        (sl.moved = true → s.gate.state = .holdTracked → ∀ e ∈ t.waq, e.state ≠ .parked) ∧
        SlotFreed s t (s.ops.owed.union sl.joined)
          { s.gate with
            state := if sl.moved ∧ s.gate.state = .holdTracked then .pass else s.gate.state }
          s.timer.countdown.resume false ∧
        t.ops.abortPending = false ∧
        t.events = s.events.offers s.epoch.counter
          (reports ++ [doneReport s.epoch.counter s.mailbox.cmd .aborted .none]) ∧
        (∀ x ∈ reports, x.kind = .writeRefused) ∧
        t.answers = s.answers ++ answers ∧
        t.mailbox = s.mailbox.completed true .aborted .none (field 4 6 s.epoch.counter)) ∧
    (∀ sl, s.mailbox.cmd ≠ 0 → s.ops.abortPending = false → s.ops.slot = some sl →
      sl.command = true → sl.operation = .rollback → sl.source = .command → sl.phase = .drain →
      s.epoch.mode = .journaling →
      ∃ (t : State) (reports : List Report) (answers : List Answer),
        exec .abort s = .next t ∧
        t = { s with
          i2c := { s.i2c with index := 0x04, pointer := 1 }
          engine := none
          ops := t.ops, gate := t.gate, timer := t.timer, mailbox := t.mailbox, events := t.events
          recovery := t.recovery, answers := t.answers, waq := t.waq, captures := t.captures
          mport :=
            { s.mport with waiting := t.mport.waiting, ageClock := s.mport.ageClock + 1 } } ∧
        (sl.moved = true → s.gate.state = .holdAll → ∀ e ∈ t.waq, e.state ≠ .parked) ∧
        SlotFreed s t s.ops.owed (gateAfterRollback s sl) s.timer.countdown.resume (opensAtLeave s sl) ∧
        t.ops.abortPending = false ∧
        t.events = s.events.offers s.epoch.counter
          (reports ++ doneReport s.epoch.counter s.mailbox.cmd .aborted .none ::
            openingReports s sl s.epoch.counter) ∧
        (∀ x ∈ reports, x.kind = .writeRefused) ∧ t.answers = s.answers ++ answers ∧
        t.recovery = { s.recovery with outcome := .aborted, phase := .drain } ∧
        t.mailbox = s.mailbox.completed true .aborted .none (recoveryFields t.recovery)) ∧
    (∀ sl sc, s.mailbox.cmd ≠ 0 → s.ops.abortPending = false → s.ops.slot = some sl →
      sl.command = true → sl.operation = .verify → s.scan = some sc → s.epoch.mode = .journaling →
      ∃ t : State, exec .abort s = .next t ∧ ScanStopped s t sc .aborted ∧
        SlotFreed s t s.ops.owed s.gate s.timer.countdown false ∧
        t = { s with
          i2c := { s.i2c with index := 0x04, pointer := 1 }
          ops := { t.ops with abortPending := false }
          gate := t.gate
          timer := t.timer
          waq := if t.ops.slot = none then s.waq else s.waq.map fun e => { e with beforeHold := true }
          scan := none
          mport := t.mport
          mailbox := t.mailbox
          events := s.events.offer s.epoch.counter
            (doneReport s.epoch.counter s.mailbox.cmd .aborted .none) })

/-! ### Rollback -/

/-- DRAIN_END with records to restore begins RESTORE at head - 1 with the two reads of that record; it
does nothing while DRAIN's conditions do not hold (R117, R121, R122). The latter is the model's choice
(log entries 3, 5). -/
def Obligations.DrainEndsInRestore : Prop :=
  ∀ (s : State) (sl : Slot) (w : Walk), s.resetPhase = .running → s.ops.slot = some sl →
    sl.operation = .rollback → sl.phase = .drain → s.engine = some w →
    (s.drainDone = false → exec .drainEnd s = .next s) ∧
    (s.drainDone = true → s.journal.head ≠ w.targetStart →
      exec .drainEnd s =
        .next { s with
          ops := { s.ops with slot := some { sl with phase := .restore } }
          recovery :=
            { s.recovery with phase := .restore, toRestore := s.journal.head - w.targetStart }
          engine := some
            { w with
              walk := some (s.journal.head - 1)
              current := ⟨.asking 1, .asking 1⟩
              writeAttempt := 0 }
          mport :=
            { s.mport with
              waiting := s.mport.waiting ++
                [⟨.restoreImage, .read, s.journal.imageAddr (s.journal.head - 1), 64, 0, 0,
                    s.mport.ageClock⟩,
                  ⟨.restoreHeader, .read, s.journal.headerAddr (s.journal.head - 1), 64, 0, 0,
                    s.mport.ageClock⟩]
              ageClock := s.mport.ageClock + 1 } })

/-- The answer is the OKAY of the second of the walk's two reads, whichever that is (R122). -/
def LastRead (r : Request) (w : Walk) (image header : Line) (n : Nat) (a : MemAnswer) : Prop :=
  (r.owner = .restoreHeader ∧ w.current = ⟨.got image, .asking n⟩ ∧ a = .okay header) ∨
    (r.owner = .restoreImage ∧ w.current = ⟨.asking n, .got header⟩ ∧ a = .okay image)

/-- The byte address that the image of a record is written back to: line index x 64, and a free value for an
index wider than 34 bits (R122, log entry 8). -/
def writeBackAddr (header : Line) : Addr :=
  if (headerLine (lineHeader header)).toNat < 2 ^ 34 then headerLine (lineHeader header) * 64#40
  else Config.wideLineAddress (headerLine (lineHeader header))

/-- A restore read that completes a good record asks for the write of its image to its line; a restore write
answered OKAY above the target counts the record and asks for the two reads of the one below; a request that
fails for the first or second time, by an ERROR answer or a timeout, is made again at once; the first of the
two reads to be answered OKAY is kept (R122, R123, R124, R148). -/
def Obligations.TheWalkRestoresOneRecordAtATime : Prop :=
  ∀ (s : State) (ident : BitVec 8) (r : Request) (sl : Slot) (w : Walk) (p : Nat)
    (image header : Line) (n : Nat) (a : MemAnswer),
    s.resetPhase = .running → s.mport.outstandingOf ident = some r → s.ops.slot = some sl →
    s.engine = some w → w.walk = some p → s.capturesGranted →
    (LastRead r w image header n a →
      recordPasses p (s.expectedEpoch p) image (lineHeader header) = true →
      exec (.mPortAnswer ident a) s =
        .next { s with
          engine := some { w with current := ⟨.got image, .got header⟩, writeAttempt := 1 }
          mport :=
            { s.mport with
              waiting := s.mport.waiting ++
                [⟨.restoreWrite, .write, writeBackAddr header, 64, BitVec.allOnes 64, image,
                  s.mport.ageClock⟩]
              outstanding := s.mport.outstanding.filter fun o => o.ident != ident
              ageClock := s.mport.ageClock + 1 } }) ∧
    (r.owner = .restoreWrite → w.current = ⟨.got image, .got header⟩ → p ≠ w.targetStart →
      ∀ d, exec (.mPortAnswer ident (.okay d)) s =
        .next { s with
          recovery := { s.recovery with restored := s.recovery.restored + 1 }
          engine := some
            { w with walk := some (p - 1), current := ⟨.asking 1, .asking 1⟩, writeAttempt := 0 }
          mport :=
            { s.mport with
              waiting := s.mport.waiting ++
                [⟨.restoreImage, .read, s.journal.imageAddr (p - 1), 64, 0, 0, s.mport.ageClock⟩,
                  ⟨.restoreHeader, .read, s.journal.headerAddr (p - 1), 64, 0, 0, s.mport.ageClock⟩]
              outstanding := s.mport.outstanding.filter fun o => o.ident != ident
              ageClock := s.mport.ageClock + 1 } }) ∧
    (∀ (line : RecordLine) (c : Instr) (withheld : List Withheld),
      s.requestEnds ident a c withheld →
      r.owner = (match line with | .image => .restoreImage | .header => .restoreHeader) →
      (w.current.failsEarly line a n →
        exec c s =
          .next { s with
            engine := some { w with current := w.current.put line (.asking (n + 1)) }
            mport :=
              { s.mport with
                waiting := s.mport.waiting ++
                  [⟨r.owner, .read, s.journal.lineAddr p line, 64, 0, 0, s.mport.ageClock⟩]
                outstanding := s.mport.outstanding.filter fun o => o.ident != ident
                withheld := withheld
                ageClock := s.mport.ageClock + 1 } }) ∧
      (w.current.endsFirst line a (.got image) →
        exec c s =
          .next { s with
            engine := some { w with current := w.current.put line (.got image) }
            mport :=
              { s.mport with
                outstanding := s.mport.outstanding.filter fun o => o.ident != ident
                withheld := withheld
                ageClock := s.mport.ageClock + 1 } })) ∧
    ∀ (c : Instr) (withheld : List Withheld), s.requestEnds ident .error c withheld →
      r.owner = .restoreWrite → w.current = ⟨.got image, .got header⟩ → w.writeAttempt < 3 →
      exec c s =
        .next { s with
          engine := some { w with writeAttempt := w.writeAttempt + 1 }
          mport :=
            { s.mport with
              waiting := s.mport.waiting ++
                [⟨.restoreWrite, .write, writeBackAddr header, 64, BitVec.allOnes 64, image,
                  s.mport.ageClock⟩]
              outstanding := s.mport.outstanding.filter fun o => o.ident != ident
              withheld := withheld
              ageClock := s.mport.ageClock + 1 } }

/-- What SETTLE leaves, with `restored` records written back (R12, R127, R128): the target and all newer
entries replaced by one OPEN entry at the target start, head and written set back, the four epoch-open actions
run, the gate as R50 gives, ROLLBACK_DONE before the command's COMMAND_DONE, and the record COMPLETED. The order
of the events, their epoch field and the timer at a delay of 0 are the model's (log entries 18, 19, 20). -/
def Settled (s t : State) (sl : Slot) (w : Walk) (restored : Nat) : Prop :=
  t.epoch =
    { s.epoch with
      counter := s.epoch.counter + 1
      table := s.epoch.table.takeWhile (fun c => c.epoch != w.targetEpoch) ++
        [⟨s.epoch.counter + 1, w.targetStart, .stillOpen, .usable, .rollback, 0⟩] } ∧
  t.TableOk ∧
  t.journal = { s.journal with head := w.targetStart, written := w.targetStart } ∧ t.ltt = [] ∧
  t.regions = s.regions.copied ∧ t.engine = none ∧
  ((s.waq.map WaqEntry.key).Nodup → Redecided s t) ∧
  SlotFreed { s with journal := t.journal, timer := s.timer.loaded } t { s.ops.owed with timer := false }
    (gateAfterRollback s sl) s.timer.loaded.countdown (opensAtLeave s sl) ∧
  t.ops.abortPending = (if sl.command then false else s.ops.abortPending) ∧
  (sl.source ≠ .fault → sl.moved = true → s.gate.state = .holdAll → ∀ e ∈ t.waq, e.state ≠ .parked) ∧
  t.recovery =
    { s.recovery with
      outcome := .completed, phase := .settle, newEpoch := s.epoch.counter + 1, restored := restored } ∧
  t.mailbox = s.mailbox.completed sl.command .done .none (recoveryFields t.recovery) ∧
  (∃ refusals : List Report, (∀ x ∈ refusals, x.kind = .writeRefused) ∧
    t.events = s.events.offers (s.epoch.counter + 1)
      (refusals ++
        ⟨.rollbackDone, 0, s.epoch.counter + 1, BitVec.ofNat 64 w.targetEpoch, min restored 65535⟩ ::
          completionOf s sl (s.epoch.counter + 1) .done .none ++
        openingReports s sl (s.epoch.counter + 1))) ∧
  t.policy = s.policy ∧ t.scan = s.scan ∧ t.inspect = s.inspect ∧ t.i2c = s.i2c ∧
  t.faultLevel = s.faultLevel ∧ t.draws = s.draws ∧ t.pending = s.pending

/-- A rollback settles at DRAIN_END when its walk is empty, and at the OKAY of the restore write at the target
start: the target and all newer entries give way to one OPEN entry at the target start, head and written are
set back, the four epoch-open actions run, the gate ends as R50 gives, and ROLLBACK_DONE is queued before the
command's COMMAND_DONE (R12, R62, R117, R122, R127, R128). The order and epoch field of the events and the
timer at a delay of 0 are the model's inference (log entries 18, 19, 20). -/
def Obligations.ARollbackSettles : Prop :=
  ∀ (s : State) (sl : Slot) (w : Walk) (c : Checkpoint), s.resetPhase = .running →
    s.epoch.mode = .journaling → s.ops.slot = some sl → sl.operation = .rollback →
    s.engine = some w → s.TableOk → c ∈ s.epoch.table → c.epoch = w.targetEpoch →
    c.start = w.targetStart →
    (sl.phase = .drain → s.drainDone = true → s.journal.head = w.targetStart →
      ∃ t : State, exec .drainEnd s = .next t ∧ Settled s t sl w s.recovery.restored) ∧
    (∀ (ident : BitVec 8) (r : Request) (image header d : Line),
      s.mport.outstandingOf ident = some r → r.owner = .restoreWrite →
      w.walk = some w.targetStart → w.current = ⟨.got image, .got header⟩ →
      ∃ t : State, exec (.mPortAnswer ident (.okay d)) s = .next t ∧
        Settled s t sl w (s.recovery.restored + 1))

/-- A walk that fails at `p`, by a check or by the third failure of one of its requests, an ERROR answer or a
timeout, makes the part BROKEN: the gate closes with the removals of R49, the table is empty, the positions are
kept, the other read of the record is abandoned, and ROLLBACK_FAILED comes before the command's COMMAND_DONE
(R49, R123, R124, R129, R148, R153). The epoch field of the events is the model's inference (log entry 19), and
what becomes of the abandoned read if it was still waiting is left free (log entry 9). -/
def Obligations.AFailedWalkBreaksThePart : Prop :=
  ∀ (s : State) (ident : BitVec 8) (r : Request) (sl : Slot) (w : Walk) (p : Nat)
    (image header : Line) (n : Nat) (a : MemAnswer) (outcome : RecoveryOutcome) (count : Nat)
    (unneeded : Option Owner) (x : Instr) (withheld : List Withheld) (ended : MPort),
    s.resetPhase = .running → s.requestEnds ident a x withheld → s.mport.outstandingOf ident = some r →
    s.ops.slot = some sl → sl.operation = .rollback → s.engine = some w → w.walk = some p →
    s.capturesGranted →
    ended = { s.mport with
      outstanding := s.mport.outstanding.filter fun o => o.ident != ident
      withheld := withheld } →
    (LastRead r w image header n a ∧
        recordPasses p (s.expectedEpoch p) image (lineHeader header) = false ∧
        outcome = .failedCheck ∧ count = 1 ∧ unneeded = none) ∨
      (r.owner = .restoreImage ∧ w.current.image = .asking n ∧ 3 ≤ n ∧ a = .error ∧
        outcome = .failedMemory ∧ count = 2 ∧ unneeded = some .restoreHeader) ∨
      (r.owner = .restoreHeader ∧ w.current.header = .asking n ∧ 3 ≤ n ∧ a = .error ∧
        outcome = .failedMemory ∧ count = 2 ∧ unneeded = some .restoreImage) ∨
      (r.owner = .restoreWrite ∧ w.current = ⟨.got image, .got header⟩ ∧ 3 ≤ w.writeAttempt ∧
        a = .error ∧ outcome = .failedMemory ∧ count = 2 ∧ unneeded = none) →
    ∃ (t : State) (m : MPort), exec x s = .next t ∧
      (unneeded = none → m = ended) ∧ (∀ owner, unneeded = some owner → RequestAbandoned owner ended m) ∧
      fenceCloses { s with mport := m }
        { t with mport := { t.mport with ageClock := s.mport.ageClock } } ∧
      t.mport.ageClock = s.mport.ageClock + 1 ∧
      t.recovery = { s.recovery with outcome := outcome, phase := .restore, failingPosition := p } ∧
      t = { s with
        epoch := { mode := .broken, counter := 0, table := [] }
        gate := ⟨.fence, none, none⟩
        ltt := []
        engine := none
        ops :=
          { slot := none, owed := ⟨false, false, false⟩,
            abortPending := if sl.command then false else s.ops.abortPending }
        timer := { s.timer with countdown := .stopped }
        recovery := t.recovery
        mailbox := s.mailbox.completed sl.command .failed .restoreFailed (recoveryFields t.recovery)
        events := (s.events.offers s.epoch.counter (fenceReports s)).offers 0
          (⟨.rollbackFailed, 0, w.targetEpoch, BitVec.ofNat 64 p, count⟩ ::
            completionOf s sl 0 .failed .restoreFailed)
        waq := t.waq
        answers := t.answers
        mport := t.mport }

/-- ROLLBACK is refused by the first of its checks that fails, in the order of R113, and is BUSY behind a
rollback (R16, R84, R113). BUSY behind a command rollback, whose command the mailbox would hold, is the
model's choice (log entry 27). -/
def Obligations.ARollbackIsRefused : Prop :=
  ∀ s : State, s.resetPhase = .running → s.mailbox.cmd = 0 →
    (s.epoch.mode ≠ .journaling → exec .rollback s = .next (s.finished 0x07 .rejected .wrongMode 0)) ∧
    (s.epoch.mode = .journaling →
      (2 ^ 48 - 1 ≤ s.epoch.counter →
        exec .rollback s = .next (s.finished 0x07 .rejected .epochLimit 0)) ∧
      (s.epoch.counter < 2 ^ 48 - 1 →
        (rollbackTarget s.mailbox.param ≠ 0 →
          (∀ c ∈ s.epoch.table, c.epoch ≠ rollbackTarget s.mailbox.param) →
          exec .rollback s = .next (s.finished 0x07 .rejected .noSuchCheckpoint 0)) ∧
        ∀ c, s.targetEntry (rollbackTarget s.mailbox.param) = some c →
          (c.condition = .damaged →
            exec .rollback s = .next (s.finished 0x07 .rejected .checkpointDamaged 0)) ∧
          (c.condition = .lost →
            exec .rollback s = .next (s.finished 0x07 .rejected .checkpointLost 0)) ∧
          ∀ sl, c.condition = .usable → s.ops.slot = some sl → sl.operation = .rollback →
            exec .rollback s = .next (s.finished 0x07 .busy .none 0)))

/-- A ROLLBACK that passes its checks starts in DRAIN on an idle slot or in place of an automatic seal,
whose sources become owed; the gate goes from PASS or HOLD_TRACKED to HOLD_ALL and the Last Recovery
Record is written anew (R113, R116, R50, R88). -/
def Obligations.ACommandRollbackStarts : Prop :=
  ∀ (s : State) (c : Checkpoint) (owed : SealSources), s.resetPhase = .running → s.mailbox.cmd = 0 →
    s.epoch.mode = .journaling → s.epoch.counter < 2 ^ 48 - 1 →
    s.targetEntry (rollbackTarget s.mailbox.param) = some c → c.condition = .usable →
    (s.ops.slot = none ∧ owed = s.ops.owed) ∨
      (∃ sl, s.ops.slot = some sl ∧ sl.operation = .seal ∧
        owed = (s.ops.owed.union sl.joined).add sl.source) →
    exec .rollback s =
      .next { s.begun 0x07 with
        ops :=
          { s.ops with
            owed := owed
            slot := some
              ⟨.rollback, .command, .drain, ⟨false, false, false⟩, true,
                s.gate.state == .pass || s.gate.state == .holdTracked⟩ }
        gate :=
          { s.gate with
            state :=
              if s.gate.state = .pass ∨ s.gate.state = .holdTracked then .holdAll else s.gate.state }
        engine := some ⟨c.epoch, c.start, none, ⟨.idle, .idle⟩, 0⟩
        timer := { s.timer with countdown := s.timer.countdown.pause }
        recovery := ⟨.inProgress, .command, .drain, c.epoch, 0, 0, 0, 0, 0⟩ }

/-! ### The FAULT line and the fence -/

/-- A FAULT edge: no edge without a rise; none with faults disabled; IGNORED_BROKEN in BROKEN; in
PASSTHROUGH the part is fenced with the removals of R49 and the fence release timer started (R177, R178,
R51, R53). That an edge to a high level changes nothing, the stop of a running timer by a delay of 0, and the
zero in byte 1 of FAULT_SEEN's detail are the model's (log entries 3, 20, 31). -/
def Obligations.AFaultEdgeOutsideJournaling : Prop :=
  ∀ s : State, s.resetPhase = .running →
    (s.faultLevel = true → exec .faultEdge s = .next s) ∧
    (s.faultLevel = false → s.policy.faultEnable = false →
      exec .faultEdge s = .next { s with faultLevel := true }) ∧
    (s.faultLevel = false → s.policy.faultEnable = true → s.epoch.mode = .broken →
      exec .faultEdge s =
        .next { s with
          faultLevel := true
          gate := { s.gate with armed := none }
          events := s.events.offer s.epoch.counter ⟨.faultSeen, 0, s.epoch.counter, 5, 1⟩ }) ∧
    (s.faultLevel = false → s.policy.faultEnable = true → s.epoch.mode = .passthrough →
      ∃ t : State, exec .faultEdge s = .next t ∧ fenceCloses s t ∧
        t = { s with
          faultLevel := true
          gate :=
            ⟨.fence, none,
              if s.policy.fenceDelay = 0 then none else some (s.policy.fenceDelay * 100)⟩
          waq := t.waq
          answers := t.answers
          mport := t.mport
          events := s.events.offers s.epoch.counter
            (⟨.faultSeen, 0, s.epoch.counter, 1, 1⟩ :: fenceReports s) })

/-- A FAULT edge in JOURNALING that finds no usable checkpoint, or the counter at its limit, fences the
part without a rollback: the slot, the table and the journal stay, and the Last Recovery Record says
FAILED_NO_CHECKPOINT (R115, R16). The stop of a running timer by a delay of 0, and the zero in byte 1 of
FAULT_SEEN's detail, are the model's (log entries 20, 31). -/
def Obligations.AFaultWithoutTargetFencesThePart : Prop :=
  ∀ s : State, s.resetPhase = .running → s.faultLevel = false → s.policy.faultEnable = true →
    s.epoch.mode = .journaling → s.ops.holds .rollback = false →
    s.epoch.counter = 2 ^ 48 - 1 ∨ (∀ c ∈ s.epoch.table, c.condition ≠ .usable) →
    ∃ t : State, exec .faultEdge s = .next t ∧ fenceCloses s t ∧
      t = { s with
        faultLevel := true
        gate :=
          ⟨.fence, none, if s.policy.fenceDelay = 0 then none else some (s.policy.fenceDelay * 100)⟩
        recovery := ⟨.failedNoCheckpoint, .fault, .none, 0, 0, 0, 0, 0, 0⟩
        waq := t.waq
        answers := t.answers
        mport := t.mport
        events := s.events.offers s.epoch.counter
          (⟨.faultSeen, 0, s.epoch.counter, 4, 1⟩ :: fenceReports s) }

/-- A FAULT edge in JOURNALING starts a fault rollback to the entry at the fault depth, or to the oldest
USABLE one newer than it, on an idle slot, or in place of a SEAL, a STOP or a command rollback in DRAIN,
whose command completes PREEMPTED and whose sources become owed, or in place of VERIFY, whose command
completes PREEMPTED with its reads abandoned (R86, R88, R114, R116, R141, R178). Byte 1 of FAULT_SEEN's
detail is zero by the model's choice (log entry 31), and what becomes of VERIFY's reads that were still waiting
is left free (log entry 9). -/
def Obligations.AFaultStartsARollback : Prop :=
  ∀ (s : State) (older newer : List Checkpoint) (c : Checkpoint) (seen : Report),
    s.resetPhase = .running → s.faultLevel = false → s.policy.faultEnable = true →
    s.epoch.mode = .journaling → s.epoch.counter ≠ 2 ^ 48 - 1 →
    s.epoch.table = older ++ c :: newer → c.condition = .usable →
    s.epoch.table.length - 1 - s.policy.faultDepth ≤ older.length →
    (∀ x ∈ older.drop (s.epoch.table.length - 1 - s.policy.faultDepth), x.condition ≠ .usable) →
    seen = ⟨.faultSeen, 0, s.epoch.counter, 2#64 ||| (BitVec.ofNat 48 c.epoch).setWidth 64 <<< 16, 1⟩ →
    ((s.ops.slot = none ∨
        ∃ sl, s.ops.slot = some sl ∧
          (sl.operation = .seal ∨ sl.operation = .stop ∨
            (sl.operation = .rollback ∧ sl.source = .command ∧ sl.phase = .drain))) →
      ∃ t : State, exec .faultEdge s = .next t ∧ fenceCloses s t ∧
        t = { s with
          faultLevel := true
          gate := ⟨.fence, none, none⟩
          ops :=
            { slot := some ⟨.rollback, .fault, .drain, ⟨false, false, false⟩, false, false⟩
              owed :=
                match s.ops.slot with
                | none => s.ops.owed
                | some sl =>
                  if sl.operation = .rollback then s.ops.owed
                  else (s.ops.owed.union sl.joined).add sl.source
              abortPending := if s.ops.hasCommand then false else s.ops.abortPending }
          engine := some ⟨c.epoch, c.start, none, ⟨.idle, .idle⟩, 0⟩
          timer := { s.timer with countdown := s.timer.countdown.pause }
          recovery := ⟨.inProgress, .fault, .drain, c.epoch, 0, 0, 0, 0, 0⟩
          mailbox :=
            match s.ops.slot with
            | none => s.mailbox
            | some sl =>
              s.mailbox.completed sl.command .preempted .none
                (if sl.operation = .rollback then recoveryFields s.recovery else field 4 6 s.epoch.counter)
          waq := t.waq
          answers := t.answers
          mport := t.mport
          events := s.events.offers s.epoch.counter
            (seen ::
              ((match s.ops.slot with
                | none => []
                | some sl => completionOf s sl s.epoch.counter .preempted .none) ++ fenceReports s)) }) ∧
    (∀ sl sc, s.ops.slot = some sl → sl.operation = .verify → s.scan = some sc →
      ∃ (t : State) (m : MPort), exec .faultEdge s = .next t ∧ ScanAbandoned s.mport m ∧
        fenceCloses { s with mport := m } t ∧
        t = { s with
          faultLevel := true
          gate := ⟨.fence, none, none⟩
          ops :=
            { slot := some ⟨.rollback, .fault, .drain, ⟨false, false, false⟩, false, false⟩
              owed := s.ops.owed
              abortPending := false }
          engine := some ⟨c.epoch, c.start, none, ⟨.idle, .idle⟩, 0⟩
          timer := { s.timer with countdown := s.timer.countdown.pause }
          recovery := ⟨.inProgress, .fault, .drain, c.epoch, 0, 0, 0, 0, 0⟩
          scan := none
          mailbox := s.mailbox.completed true .preempted .none (scanFields sc)
          waq := t.waq
          answers := t.answers
          mport := t.mport
          events := s.events.offers s.epoch.counter
            (seen :: doneReport s.epoch.counter s.mailbox.cmd .preempted .none :: fenceReports s) })

/-- A FAULT edge during a fault-owned rollback, or a command rollback in RESTORE, is counted, and the
rollback is fault-owned under FENCE from then on (R86, R89, R132, R178). Byte 1 of FAULT_SEEN's detail is
zero by the model's choice (log entry 31). -/
def Obligations.AFaultDuringRecoveryIsCounted : Prop :=
  ∀ (s : State) (sl : Slot), s.resetPhase = .running → s.faultLevel = false →
    s.policy.faultEnable = true → s.epoch.mode = .journaling → s.ops.slot = some sl →
    sl.operation = .rollback → sl.source = .fault ∨ sl.phase = .restore →
    ∃ t : State, exec .faultEdge s = .next t ∧ fenceCloses s t ∧
      t = { s with
        faultLevel := true
        gate := { s.gate with state := .fence, armed := none }
        ops := { s.ops with slot := some { sl with source := .fault } }
        recovery := { s.recovery with faults := min (s.recovery.faults + 1) 255 }
        waq := t.waq
        answers := t.answers
        mport := t.mport
        events := s.events.offers s.epoch.counter
          (⟨.faultSeen, 0, s.epoch.counter, 3, min (s.recovery.faults + 1) 255⟩ :: fenceReports s) }

/-- The fence opens when release armed is set, FAULT is low, no rollback holds the slot and the part is
not BROKEN: at the fall of the FAULT level and at the expiry of the fence release timer, which sets
release armed; otherwise the gate stays (R50, R52, R53). That an event that cannot occur changes nothing
is the model's choice (log entry 3). -/
def Obligations.TheFenceOpens : Prop :=
  ∀ s : State, s.resetPhase = .running →
    (s.faultLevel = false → exec .faultLevelFall s = .next s) ∧
    (∀ cause, s.faultLevel = true → s.gate.state = .fence → s.gate.armed = some cause →
      s.ops.holds .rollback = false → s.epoch.mode ≠ .broken →
      exec .faultLevelFall s = .next { s.openedBy cause with faultLevel := false }) ∧
    (s.faultLevel = true →
      s.gate.state ≠ .fence ∨ s.gate.armed = none ∨ s.ops.holds .rollback = true ∨
        s.epoch.mode = .broken →
      exec .faultLevelFall s = .next { s with faultLevel := false }) ∧
    (s.gate.timer = none → exec .fenceReleaseTimerExpiry s = .next s) ∧
    (∀ n, s.gate.timer = some n → s.gate.state = .fence →
      (s.gate.armed = none → s.faultLevel = false → s.ops.holds .rollback = false →
        s.epoch.mode ≠ .broken → exec .fenceReleaseTimerExpiry s = .next (s.openedBy .timer)) ∧
      (s.faultLevel = true ∨ s.ops.holds .rollback = true ∨ s.epoch.mode = .broken →
        exec .fenceReleaseTimerExpiry s =
          .next { s with
            gate :=
              { s.gate with
                timer := none
                armed := match s.gate.armed with | none => some .timer | some c => some c } }))

/-- RELEASE by the table of R54: refused in BROKEN; under FENCE with the flag clear it sets the flag and
the gate opens if it may; otherwise it finds nothing to do. GATE_RELEASED comes before COMMAND_DONE by the
model's inference (log entry 18), and the codes 0x01 and 0x00 of *release armed* in the result data are the
model's choice (log entry 32). -/
def Obligations.TheReleaseCommand : Prop :=
  ∀ s : State, s.resetPhase = .running → s.mailbox.cmd = 0 →
    (s.epoch.mode = .broken →
      exec .release s = .next (s.finished 0x09 .rejected .gateBroken 0)) ∧
    (s.epoch.mode ≠ .broken → s.gate.state = .fence → s.gate.armed = none →
      (s.faultLevel = false → s.ops.holds .rollback = false →
        exec .release s =
          .next ((s.openedBy .command).finished 0x09 .done .none
            (field 4 1 (if s.ops.holds .seal || s.ops.holds .stop then 1 else 0) ||| field 5 1 0))) ∧
      (s.faultLevel = true ∨ s.ops.holds .rollback = true →
        exec .release s =
          .next ({ s with gate := { s.gate with armed := some .command } }.finished 0x09 .done .none
            (field 4 1 3 ||| field 5 1 1)))) ∧
    (s.epoch.mode ≠ .broken → s.gate.state = .fence → s.gate.armed ≠ none →
      exec .release s = .next (s.finished 0x09 .done .none (field 4 1 3 ||| field 5 1 1))) ∧
    (s.epoch.mode ≠ .broken → s.gate.state ≠ .fence → s.gate.armed = none →
      exec .release s =
        .next (s.finished 0x09 .done .none (field 4 1 (gateCode s.gate.state) ||| field 5 1 0)))

/-! ### The short mailbox commands -/

/-- A range of lines meets no valid entry of either region table (R20). -/
def ClearOfRegions (s : State) (first last : Nat) : Prop :=
  ∀ m b l, (RegionEntry.valid m b l ∈ s.regions.active.toList ∨
      RegionEntry.valid m b l ∈ s.regions.shadow.toList) →
    l.toNat < first ∨ last < b.toNat

/-- SET_JOURNAL with parameters `p`: refused outside PASSTHROUGH, and by the first check of R20 that
fails; a capacity of 0 removes the journal; otherwise the geometry is replaced. The port's index and
pointer are those after the one code byte written to CMD (R156). -/
def Obligations.TheSetJournalCommand : Prop :=
  ∀ (s : State) (p : JournalParams), s.resetPhase = .running → s.mailbox.cmd = 0 →
    journalParams s.mailbox.param = p →
    (s.epoch.mode ≠ .passthrough →
      exec .setJournal s = .next (s.finished 0x01 .rejected .wrongMode 0)) ∧
    (s.epoch.mode = .passthrough →
      (p.capacity = 0 →
        exec .setJournal s =
          .next ({ s with journal := { s.journal with base := 0, capacity := 0, depth := 1 } }.finished 0x01
            .done .none (field 4 5 0 ||| field 12 4 0 ||| field 16 1 1))) ∧
      (p.capacity ≠ 0 →
        p.capacity < 1024 ∨ 16777216 < p.capacity ∨ p.base % 4096 ≠ 0 ∨ p.depth < 1 ∨ 4 < p.depth ∨
          2 ^ 40 < p.base + p.capacity * 128 →
        exec .setJournal s = .next (s.finished 0x01 .rejected .badParam 0)) ∧
      (1024 ≤ p.capacity → p.capacity ≤ 16777216 → p.base % 4096 = 0 → 1 ≤ p.depth → p.depth ≤ 4 →
        p.base + p.capacity * 128 ≤ 2 ^ 40 →
        (ClearOfRegions s (p.base / 64) (p.base / 64 + 2 * p.capacity - 1) →
          exec .setJournal s =
            .next ({ s with
              journal :=
                { s.journal with base := p.base, capacity := p.capacity, depth := p.depth } }.finished 0x01
              .done .none (field 4 5 p.base ||| field 12 4 p.capacity ||| field 16 1 p.depth))) ∧
        (¬ClearOfRegions s (p.base / 64) (p.base / 64 + 2 * p.capacity - 1) →
          exec .setJournal s = .next (s.finished 0x01 .rejected .overlap 0))))

/-- The region tables after a shadow entry is written: copied at once outside JOURNALING (R44, R45). -/
def regionsWith (s : State) (index : Nat) (e : RegionEntry) : Regions :=
  let written := { s.regions with shadow := s.regions.shadow.setIfInBounds index e }
  if s.epoch.mode = .journaling then written else written.copied

/-- SET_REGION with parameters `p`: refused by the first check of R44 that fails, and otherwise it writes
one shadow entry; its result data is the shadow table whatever the result (R44, R45, R167). The contents
of an entry written not valid are free, its mode being one of the three (R41, R183, log entry 7). -/
def Obligations.TheSetRegionCommand : Prop :=
  ∀ (s : State) (p : RegionParams), s.resetPhase = .running → s.mailbox.cmd = 0 →
    regionParams s.mailbox.param = p →
    (7 < p.index →
      exec .setRegion s = .next (s.finished 0x02 .rejected .badParam (regionFields s.regions))) ∧
    (p.index ≤ 7 → p.valid = false →
      ∃ (mode : LineMode) (base limit : LineIndex) (r : Regions),
        r = regionsWith s p.index (.notValid mode base limit) ∧
        exec .setRegion s =
          .next ({ s with regions := r, draws := s.draws + 1 }.finished 0x02 .done .none (regionFields r))) ∧
    (p.index ≤ 7 → p.valid = true →
      (p.mode < 1 ∨ 3 < p.mode ∨ p.base % 64 ≠ 0 ∨ (p.limit + 1) % 64 ≠ 0 ∨ p.limit < p.base ∨
          2 ^ 34 - 1 < p.limit →
        exec .setRegion s = .next (s.finished 0x02 .rejected .badParam (regionFields s.regions))) ∧
      (∀ mode : LineMode, regionModeCode mode = p.mode → p.base % 64 = 0 → (p.limit + 1) % 64 = 0 →
        p.base ≤ p.limit → p.limit ≤ 2 ^ 34 - 1 →
        ((∀ m b l, RegionEntry.valid m b l ∈ s.regions.shadow.toList.eraseIdx p.index →
            l.toNat < p.base ∨ p.limit < b.toNat) →
          s.journal.capacity = 0 ∨ p.limit < s.journal.base / 64 ∨
            s.journal.base / 64 + 2 * s.journal.capacity ≤ p.base →
          exec .setRegion s =
            .next ({ s with
              regions := regionsWith s p.index
                (.valid mode (BitVec.ofNat 34 p.base) (BitVec.ofNat 34 p.limit)) }.finished 0x02 .done .none
              (regionFields (regionsWith s p.index
                (.valid mode (BitVec.ofNat 34 p.base) (BitVec.ofNat 34 p.limit)))))) ∧
        ((∃ m b l, RegionEntry.valid m b l ∈ s.regions.shadow.toList.eraseIdx p.index ∧
              p.base ≤ l.toNat ∧ b.toNat ≤ p.limit) ∨
            (s.journal.capacity ≠ 0 ∧ s.journal.base / 64 ≤ p.limit ∧
              p.base < s.journal.base / 64 + 2 * s.journal.capacity) →
          exec .setRegion s =
            .next (s.finished 0x02 .rejected .overlap (regionFields s.regions)))))

/-- SET_POLICY with parameters `p`: refused when a check of R164 fails, and otherwise the shadow unmapped
mode, the fault enable and depth and the fence release delay take their values; its result data shows them
whatever the result (R164, R45, R167). The port's index and pointer are those after the one code byte
written to CMD (R156). -/
def Obligations.TheSetPolicyCommand : Prop :=
  ∀ (s : State) (p : PolicyParams), s.resetPhase = .running → s.mailbox.cmd = 0 →
    policyParams s.mailbox.param = p →
    ((∀ u : Unmapped, unmappedCode u ≠ p.unmapped) ∨ 1 < p.faultEnable ∨ 3 < p.faultDepth →
      exec .setPolicy s =
        .next (s.finished 0x03 .rejected .badParam (policyFields s.regions s.policy))) ∧
    ∀ (u : Unmapped) (r : Regions), unmappedCode u = p.unmapped → p.faultEnable ≤ 1 → p.faultDepth ≤ 3 →
      r = (if s.epoch.mode = .journaling then { s.regions with shadowUnmapped := u }
        else { s.regions with shadowUnmapped := u }.copied) →
      exec .setPolicy s =
        .next ({ s with
          regions := r
          policy := ⟨p.faultEnable == 1, p.faultDepth, p.fenceDelay⟩ }.finished 0x03 .done .none
          (policyFields r ⟨p.faultEnable == 1, p.faultDepth, p.fenceDelay⟩))

/-- START: refused outside PASSTHROUGH or with no journal configured; otherwise epoch 1 opens at position 0
with the four epoch-open actions, and gate, slot, policy and Last Recovery Record stay (R11, R12, R62, R184).
The order of the events, and the epoch 1 that COMMAND_DONE carries, are the model's inference (log entries 18,
19). -/
def Obligations.TheStartCommand : Prop :=
  ∀ s : State, s.resetPhase = .running → s.mailbox.cmd = 0 →
    (s.epoch.mode ≠ .passthrough → exec .start s = .next (s.finished 0x04 .rejected .wrongMode 0)) ∧
    (s.epoch.mode = .passthrough → s.journal.capacity = 0 →
      exec .start s = .next (s.finished 0x04 .rejected .badParam 0)) ∧
    (s.epoch.mode = .passthrough → s.journal.capacity ≠ 0 →
      ∃ (t : State) (refusals : List Report) (answers : List Answer), exec .start s = .next t ∧
        t.epoch = ⟨.journaling, 1, [⟨1, 0, .stillOpen, .usable, .start, 0⟩]⟩ ∧
        t.journal = { s.journal with head := 0, written := 0, tail := 0, ended := [] } ∧ t.ltt = [] ∧
        t.regions = s.regions.copied ∧ t.timer = s.timer.loaded ∧
        ((s.waq.map WaqEntry.key).Nodup → Redecided s t) ∧
        t.mailbox =
          { s.mailbox with
            copy := s.mailbox.param
            result := resultHeader .done .none 0x04 ||| field 4 6 1 } ∧
        (∀ x ∈ refusals, x.kind = .writeRefused) ∧
        t.events = s.events.offers 1 (refusals ++ [doneReport 1 0x04 .done .none]) ∧
        t.answers = s.answers ++ answers ∧ t.gate = s.gate ∧ t.policy = s.policy ∧
        t.ops = { s.ops with abortPending := false } ∧ t.recovery = s.recovery ∧ t.engine = s.engine ∧
        t.scan = s.scan ∧ t.inspect = s.inspect ∧ t.faultLevel = s.faultLevel ∧ t.draws = s.draws ∧
        t.pending = s.pending ∧ t.i2c = { s.i2c with index := 0x04, pointer := 1 } ∧
        t.mport.outstanding = s.mport.outstanding ∧ t.mport.withheld = s.mport.withheld)

/-- RECOVER: refused outside BROKEN; in BROKEN the part goes to PASSTHROUGH with positions 0, LTT cleared
and shadow values copied; the gate stays FENCE with no release (R131). The port's index and pointer are
those after the one code byte written to CMD (R156). -/
def Obligations.TheRecoverCommand : Prop :=
  ∀ s : State, s.resetPhase = .running → s.mailbox.cmd = 0 →
    (s.epoch.mode ≠ .broken → exec .recover s = .next (s.finished 0x0A .rejected .wrongMode 0)) ∧
    (s.epoch.mode = .broken → s.gate.armed = none →
      exec .recover s =
        .next ({ s with
          epoch := { s.epoch with mode := .passthrough }
          journal := { s.journal with head := 0, written := 0, tail := 0, ended := [] }
          ltt := []
          regions := s.regions.copied }.finished 0x0A .done .none
          (field 4 8 s.journal.head ||| field 12 8 s.journal.written ||| field 20 8 s.journal.tail)))

/-- READ_CHECKPOINTS completes DONE in every mode with the entry count, the counter and the entries, oldest
first, each with the codes of R183, and changes nothing the part keeps (R144, R182, R183). The port's index
and pointer are those after the one code byte written to CMD (R156). -/
def Obligations.TheReadCheckpointsCommand : Prop :=
  ∀ s : State, s.resetPhase = .running → s.mailbox.cmd = 0 →
    exec .readCheckpoints s =
      .next (s.finished 0x0B .done .none
        (field 4 1 s.epoch.table.length ||| field 8 6 s.epoch.counter |||
          fieldsFrom 16 20 (s.epoch.table.map fun c =>
            c.epoch % 2 ^ 48 + c.start % 2 ^ 64 * 2 ^ 48 + entryStateCode c.state * 2 ^ 112 +
              conditionCode c.condition * 2 ^ 116 + sourceCode c.openedBy * 2 ^ 120 +
              c.repeats % 2 ^ 32 * 2 ^ 128)))

/-- READ_RECORD at position `p`: refused in PASSTHROUGH and outside the positions of its mode; otherwise
the two reads are asked for and the command runs on (R142). -/
def Obligations.TheReadRecordCommand : Prop :=
  ∀ (s : State) (p : Nat), s.resetPhase = .running → s.mailbox.cmd = 0 →
    recordPosition s.mailbox.param = p →
    (s.epoch.mode = .passthrough →
      exec .readRecord s = .next (s.finished 0x0C .rejected .wrongMode 0)) ∧
    ((s.epoch.mode = .journaling ∧ ¬(s.journal.tail ≤ p ∧ p < s.journal.written)) ∨
        (s.epoch.mode = .broken ∧ ¬(s.journal.tail ≤ p ∧ p < s.journal.head)) →
      exec .readRecord s = .next (s.finished 0x0C .rejected .badParam 0)) ∧
    ((s.epoch.mode = .journaling ∧ s.journal.tail ≤ p ∧ p < s.journal.written) ∨
        (s.epoch.mode = .broken ∧ s.journal.tail ≤ p ∧ p < s.journal.head) →
      s.capturesGranted →
      exec .readRecord s =
        .next { s.begun 0x0C with
          inspect := some ⟨p, ⟨.asking 1, .asking 1⟩⟩
          mport :=
            { s.mport with
              waiting := s.mport.waiting ++
                [⟨.inspectImage, .read, s.journal.imageAddr p, 64, 0, 0, s.mport.ageClock⟩,
                  ⟨.inspectHeader, .read, s.journal.headerAddr p, 64, 0, 0, s.mport.ageClock⟩]
              ageClock := s.mport.ageClock + 1 } })

/-- The positions in range for READ_RECORD, by the mode (R142). -/
def inRange (s : State) (p : Nat) : Bool :=
  match s.epoch.mode with
  | .passthrough => false
  | .journaling => s.journal.tail ≤ p && p < s.journal.written
  | .broken => s.journal.tail ≤ p && p < s.journal.head

/-- Two bits of a test result: not made, passed or failed (R182). -/
def testField (made passed : Bool) : Nat := if made then (if passed then 1 else 2) else 0

/-- A READ_RECORD read that fails for the first or second time is made again at once, and the first of the two
to end is kept. When the second ends, whichever that is and whether the two succeeded or failed three times,
READ_RECORD completes DONE: its result data is the image and the header with zeros for a failed read, the check
value computed over them, both reads' status, and the test results, the expected epoch and the retained flag as
they then stand, in every mode (R142, R143, R148, R167, R182). What the computed check is after a failed read is
left free (log entry 23); the zeros in bits 2 to 7 of the read status are the model's choice (log entry 32). -/
def Obligations.AReadRecordCompletes : Prop :=
  ∀ (s : State) (ident : BitVec 8) (r : Request) (i : Inspection) (line : RecordLine) (a : MemAnswer)
    (c : Instr) (withheld : List Withheld),
    s.resetPhase = .running → s.mport.outstandingOf ident = some r → s.requestEnds ident a c withheld →
    r.owner = (match line with | .image => .inspectImage | .header => .inspectHeader) →
    s.inspect = some i → s.capturesGranted →
    (∀ n, i.current.failsEarly line a n →
      exec c s =
        .next { s with
          inspect := some { i with current := i.current.put line (.asking (n + 1)) }
          mport :=
            { s.mport with
              waiting := s.mport.waiting ++
                [⟨r.owner, .read, s.journal.lineAddr i.position line, 64, 0, 0, s.mport.ageClock⟩]
              outstanding := s.mport.outstanding.filter fun o => o.ident != ident
              withheld := withheld
              ageClock := s.mport.ageClock + 1 } }) ∧
    (∀ ended, i.current.endsFirst line a ended →
      exec c s =
        .next { s with
          inspect := some { i with current := i.current.put line ended }
          mport :=
            { s.mport with
              outstanding := s.mport.outstanding.filter fun o => o.ident != ident
              withheld := withheld
              ageClock := s.mport.ageClock + 1 } }) ∧
    ∀ (image header : Option Line) (h : BitVec 128) (both made : Bool) (expected : Option Nat),
      i.current.endsBoth line a image header →
      h = lineHeader (header.getD 0) → both = (image.isSome && header.isSome) →
      made = (both && (s.epoch.mode == .journaling && inRange s i.position)) →
      expected = s.expectedEpoch i.position →
      ∃ (t : State) (check : BitVec 16), exec c s = .next t ∧
        (both = true → check = checkValue (image.getD 0) h) ∧
        t = { s with
          inspect := none
          draws := if both then s.draws else s.draws + 1
          ops := { s.ops with abortPending := false }
          mailbox := s.mailbox.completed true .done .none
            (field 4 64 (image.getD 0).toNat ||| field 68 16 h.toNat ||| field 84 2 check.toNat |||
              field 86 1 (bit image.isSome + 2 * bit header.isSome) |||
              field 87 1
                (testField both (flagsTest h) + 4 * testField both (lapTest i.position h) +
                  16 * testField both (checkTest (image.getD 0) h) +
                  64 * testField made (expected == some (headerEpoch h))) |||
              field 88 1 (bit (inRange s i.position)) |||
              field 89 6 (if made then expected.getD 0 else 0))
          events := s.events.offer s.epoch.counter
            (doneReport s.epoch.counter s.mailbox.cmd .done .none)
          mport :=
            { s.mport with
              outstanding := s.mport.outstanding.filter fun o => o.ident != ident
              withheld := withheld
              ageClock := s.mport.ageClock + 1 } }

/-! ### VERIFY -/

/-- VERIFY: refused outside JOURNALING and BUSY on a busy slot; with records it takes the slot and asks for
the reads of the record at tail; with none it completes DONE at once with VERIFY_DONE, the slot frees and a
seal that the owed flags qualify starts (R91, R135, R136, R139). BUSY behind another operation whose command
the mailbox would hold is the model's choice (log entry 27). -/
def Obligations.TheVerifyCommand : Prop :=
  ∀ s : State, s.resetPhase = .running → s.mailbox.cmd = 0 →
    (s.epoch.mode ≠ .journaling → exec .verify s = .next (s.finished 0x08 .rejected .wrongMode 0)) ∧
    (s.epoch.mode = .journaling → s.ops.slot ≠ none →
      exec .verify s = .next (s.finished 0x08 .busy .none 0)) ∧
    (s.epoch.mode = .journaling → s.ops.slot = none → s.capturesGranted →
      (s.journal.tail < s.journal.written →
        exec .verify s =
          .next { s.begun 0x08 with
            ops :=
              { s.ops with
                slot := some ⟨.verify, .command, .scan, ⟨false, false, false⟩, true, false⟩ }
            scan := some
              { scanStart := s.journal.tail, scanEnd := s.journal.written, position := s.journal.tail,
                checked := 0, skipped := 0, bad := 0, unreadable := 0, firstBad := 0,
                current := ⟨.asking 1, .asking 1⟩ }
            mport :=
              { s.mport with
                waiting := s.mport.waiting ++
                  [⟨.verifyImage, .read, s.journal.imageAddr s.journal.tail, 64, 0, 0, s.mport.ageClock⟩,
                    ⟨.verifyHeader, .read, s.journal.headerAddr s.journal.tail, 64, 0, 0,
                      s.mport.ageClock⟩]
                ageClock := s.mport.ageClock + 1 } }) ∧
      (s.journal.tail = s.journal.written →
        ∃ t : State, exec .verify s = .next t ∧
          SlotFreed s t s.ops.owed s.gate s.timer.countdown false ∧
          t = State.finished
            { s with
              ops := t.ops
              gate := t.gate
              timer := t.timer
              waq :=
                if t.ops.slot = none then s.waq else s.waq.map fun e => { e with beforeHold := true }
              scan := none
              mport := { s.mport with ageClock := s.mport.ageClock + 1 }
              events := s.events.offer s.epoch.counter ⟨.verifyDone, 0, s.epoch.counter, 0, 0⟩ }
            0x08 .done .none
            (scanFields
              ⟨s.journal.tail, s.journal.tail, s.journal.tail, 0, 0, 0, 0, 0, ⟨.idle, .idle⟩⟩)))

/-- The scan once both reads of its record have ended: a record below tail is skipped up to tail, another
one is counted, bad when it fails a test, bad and unreadable when a read failed (R136, R137). -/
def scanNext (sc : Scan) (tail : Nat) (bad unreadable : Bool) : Scan :=
  if sc.position < tail then
    { sc with skipped := sc.skipped + (tail - sc.position), position := tail }
  else
    { sc with
      checked := sc.checked + 1
      bad := if bad then sc.bad + 1 else sc.bad
      unreadable := if unreadable then sc.unreadable + 1 else sc.unreadable
      firstBad := if bad ∧ sc.bad = 0 then sc.position else sc.firstBad
      position := sc.position + 1 }

/-- A read of VERIFY that fails for the first or second time, by an ERROR answer or a timeout, is made again
at once, and the first of the two to end is kept. The record at the scan position is taken when the second
ends: one that tail has passed is skipped, one that is unreadable or fails a test is bad and marks every
USABLE entry starting at or below it DAMAGED. Before the scan end the reads of the next record are asked for;
at the scan end VERIFY_DONE is queued, VERIFY completes DONE, and the slot frees (R91, R136, R137, R138, R139,
R148). -/
def Obligations.TheScanTakesARecord : Prop :=
  ∀ (s : State) (ident : BitVec 8) (r : Request) (sc : Scan) (line : RecordLine) (a : MemAnswer)
    (c : Instr) (withheld : List Withheld),
    s.resetPhase = .running → s.mport.outstandingOf ident = some r → s.requestEnds ident a c withheld →
    r.owner = (match line with | .image => .verifyImage | .header => .verifyHeader) →
    s.scan = some sc → s.epoch.mode = .journaling → s.capturesGranted →
    (∀ n, sc.current.failsEarly line a n →
      exec c s =
        .next { s with
          scan := some { sc with current := sc.current.put line (.asking (n + 1)) }
          mport :=
            { s.mport with
              waiting := s.mport.waiting ++
                [⟨r.owner, .read, s.journal.lineAddr sc.position line, 64, 0, 0, s.mport.ageClock⟩]
              outstanding := s.mport.outstanding.filter fun o => o.ident != ident
              withheld := withheld
              ageClock := s.mport.ageClock + 1 } }) ∧
    (∀ ended, sc.current.endsFirst line a ended →
      exec c s =
        .next { s with
          scan := some { sc with current := sc.current.put line ended }
          mport :=
            { s.mport with
              outstanding := s.mport.outstanding.filter fun o => o.ident != ident
              withheld := withheld
              ageClock := s.mport.ageClock + 1 } }) ∧
    ∀ (image header : Option Line) (bad : Bool) (next : Scan) (table : List Checkpoint),
      sc.current.endsBoth line a image header →
      bad = (image.isNone || header.isNone ||
        !recordPasses sc.position (s.expectedEpoch sc.position) (image.getD 0)
          (lineHeader (header.getD 0))) →
      next = scanNext sc s.journal.tail bad (image.isNone || header.isNone) →
      table =
        (if s.journal.tail ≤ sc.position ∧ bad = true then
          s.epoch.table.map fun x =>
            if x.start ≤ sc.position ∧ x.condition = .usable then { x with condition := .damaged } else x
        else s.epoch.table) →
      (next.position < sc.scanEnd →
        exec c s =
          .next { s with
            epoch := { s.epoch with table := table }
            scan := some { next with current := ⟨.asking 1, .asking 1⟩ }
            mport :=
              { s.mport with
                waiting := s.mport.waiting ++
                  [⟨.verifyImage, .read, s.journal.imageAddr next.position, 64, 0, 0, s.mport.ageClock⟩,
                    ⟨.verifyHeader, .read, s.journal.headerAddr next.position, 64, 0, 0,
                      s.mport.ageClock⟩]
                outstanding := s.mport.outstanding.filter fun o => o.ident != ident
                withheld := withheld
                ageClock := s.mport.ageClock + 1 } }) ∧
      (sc.scanEnd ≤ next.position →
        ∃ t : State, exec c s = .next t ∧
          SlotFreed s t s.ops.owed s.gate s.timer.countdown false ∧
          t = { s with
            epoch := { s.epoch with table := table }
            scan := none
            ops := { t.ops with abortPending := false }
            gate := t.gate
            timer := t.timer
            waq :=
              if t.ops.slot = none then s.waq else s.waq.map fun e => { e with beforeHold := true }
            mailbox := s.mailbox.completed true .done .none (scanFields next)
            events := s.events.offers s.epoch.counter
              [⟨.verifyDone, 0, s.epoch.counter, BitVec.ofNat 64 next.firstBad, min next.bad 65535⟩,
                doneReport s.epoch.counter s.mailbox.cmd .done .none]
            mport :=
              { s.mport with
                outstanding := s.mport.outstanding.filter fun o => o.ident != ident
                withheld := withheld
                ageClock := s.mport.ageClock + 1 } })

/-! ### The mailbox's refusals and the register window -/

/-- The mailbox commands other than ABORT, with their codes (10.3). -/
def commandCodes : List (Instr × Byte) :=
  [(.setJournal, 0x01), (.setRegion, 0x02), (.setPolicy, 0x03), (.start, 0x04), (.stop, 0x05),
    (.seal, 0x06), (.rollback, 0x07), (.verify, 0x08), (.release, 0x09), (.recover, 0x0A),
    (.readCheckpoints, 0x0B), (.readRecord, 0x0C)]

/-- While a command runs, a CMD write of any command but ABORT, or of a value that is no command code, is
refused: CMD, RESULT and the running command's copy of PARAM stay, and a COMMAND_DONE with BUSY is queued
(R162). While none runs, such a value completes REJECTED with BAD_PARAM in the same step (R160). The
port's index and pointer are those after the one code byte written to CMD (R156). -/
def Obligations.TheMailboxTakesOneCommand : Prop :=
  ∀ (s : State) (v : Byte), s.resetPhase = .running → isCommandCode v = false →
    (s.mailbox.cmd ≠ 0 →
      (∀ x ∈ commandCodes, exec x.1 s =
        .next { s with
          i2c := { s.i2c with index := 0x04, pointer := 1 }
          events := s.events.offer s.epoch.counter (doneReport s.epoch.counter x.2 .busy .none) }) ∧
      exec (.invalidCommandCode v) s =
        .next { s with
          i2c := { s.i2c with index := 0x04, pointer := 1 }
          events := s.events.offer s.epoch.counter (doneReport s.epoch.counter v .busy .none) }) ∧
    (s.mailbox.cmd = 0 →
      exec (.invalidCommandCode v) s = .next (s.finished v .rejected .badParam 0))

/-- A byte of a register after a write transaction with these data bytes, its value before being `old`: the
bytes that were not written keep their values (R156). -/
def writtenByte (bytes : List Byte) (k : Nat) (old : Byte) : Byte := (bytes[k]?).getD old

/-- A write of TIMER_CTL replaces NEXT_INTERVAL and EXTEND, byte by byte as far as it goes, and leaves the
countdown. Clearing EXTEND with timer-owed set in JOURNALING asks for a TIMER seal, by the slot's content: idle,
a seal starts; SEAL, the request joins it and timer-owed clears; STOP or ROLLBACK, timer-owed stays; VERIFY, it
is cancelled PREEMPTED and the seal starts (R83, R85, R87, R94, R99, R141, R156). That the gate moves as for any
seal, against a sentence of R184, is the model's inference (log entry 25), and what becomes of VERIFY's reads
that were still waiting is left free (log entry 9). -/
def Obligations.ATimerCtlWrite : Prop :=
  ∀ (s u : State) (bytes : List Byte) (extend : Bool), s.resetPhase = .running →
    extend = (writtenByte bytes 3 (if s.timer.extend then 1 else 0)).getLsbD 0 →
    u = { s with
      i2c := { s.i2c with index := 0x03, pointer := bytes.length }
      timer :=
        { s.timer with
          nextInterval :=
            (writtenByte bytes 0 (BitVec.ofNat 8 s.timer.nextInterval)).toNat +
              (writtenByte bytes 1 (BitVec.ofNat 8 (s.timer.nextInterval / 2 ^ 8))).toNat * 2 ^ 8 +
              (writtenByte bytes 2 (BitVec.ofNat 8 (s.timer.nextInterval / 2 ^ 16))).toNat * 2 ^ 16
          extend := extend } } →
    (s.timer.extend = false ∨ extend = true ∨ s.ops.owed.timer = false →
      exec (.timerCtlWrite bytes) s = .next u) ∧
    (s.timer.extend = true → extend = false → s.ops.owed.timer = true → s.epoch.mode = .journaling →
      (s.ops.holds .verify = true → s.scan.isSome = true) →
      ∃ t : State, exec (.timerCtlWrite bytes) s = .next t ∧ SealAsked .timer u t)

/-- Writes of the registers but CMD and TIMER_CTL. EVENT_ACK removes the head event when both bytes were
written and name its sequence number, and is ignored otherwise; no event is queued (R175). A write of
ALERT_MASK or PARAM replaces the bytes written and keeps the others; a write to a read-only register or an
index no register holds sets the index and pointer alone, and a transaction to another address than the
part's does nothing (R155, R156, R157, R176). -/
def Obligations.TheRegisterWrites : Prop :=
  ∀ (s u : State) (address : BusAddress) (index : Byte) (bytes : List Byte), s.resetPhase = .running →
    u = { s with i2c := { s.i2c with index := 0x08, pointer := bytes.length } } →
    (∀ (e : Event) (rest : List Event) (b0 b1 : Byte) (more : List Byte),
      s.events.queue = e :: rest → bytes = b0 :: b1 :: more →
      (b0.toNat + b1.toNat * 256 = e.seq →
        exec (.eventAck bytes) s = .next { u with events := { s.events with queue := rest } }) ∧
      (b0.toNat + b1.toNat * 256 ≠ e.seq → exec (.eventAck bytes) s = .next u)) ∧
    (s.events.queue = [] ∨ bytes.length < 2 → exec (.eventAck bytes) s = .next u) ∧
    (∃ mask : BitVec 16,
      exec (.alertMaskWrite bytes) s =
        .next { s with
          i2c := { s.i2c with index := 0x09, pointer := bytes.length }
          events := { s.events with alertMask := mask } } ∧
      ∀ k, k < 2 → byteAt mask k = (bytes[k]?).getD (byteAt s.events.alertMask k)) ∧
    (address = .sevenBit s.i2c.address →
      (∃ param : BitVec 128,
        exec (.registerWrite ⟨address, 0x05⟩ bytes) s =
          .next { s with
            i2c := { s.i2c with index := 0x05, pointer := bytes.length }
            mailbox := { s.mailbox with param := param } } ∧
        ∀ k, k < 16 → byteAt param k = (bytes[k]?).getD (byteAt s.mailbox.param k)) ∧
      (bytes = [] ∨ (hasOwnRow index = false ∧ index ≠ 0x05) →
        exec (.registerWrite ⟨address, index⟩ bytes) s =
          .next { s with i2c := { s.i2c with index := index, pointer := bytes.length } })) ∧
    (address ≠ .sevenBit s.i2c.address → exec (.registerWrite ⟨address, index⟩ bytes) s = .next s)

/-- A running part acknowledges its own address alone, not the general call and no 10-bit address. A read
transaction to it returns the bytes asked for, those of the selected register from byte 0 on, and leaves the
byte pointer at their number and everything else as it was (R155, R156, R157). The registers: IDENT its fixed
identity; STATUS mode, gate, flags, slot and counts in the places of 12.3; JOURNAL_STATE the geometry and the
positions; TIMER_CTL, CMD, PARAM, RESULT and ALERT_MASK their bytes; EVENT the head event in the places of
12.4, or zeros; LAST_RECOVERY the record in the places of 12.5; EVENT_ACK, unassigned indexes and bytes past a
register's last zeros (R175, R182). The codes are the numbers of R183 and R170, 0 in the slot's three bytes
meaning none, and those of R166 in the head of RESULT and in COMMAND_DONE (R161). ALERT_N is low exactly while
the queue holds an enabled kind (R176). A read is a function of the state and no step, as the table has no row
for it (log entry 21); the revision byte is left free (log entry 6), and a number wider than its field shows
its low bytes (log entry 28). -/
def Obligations.TheWindowShowsTheRegisters : Prop :=
  ∀ (s : State) (reg : Byte → Nat → Byte), s.resetPhase = .running →
    (∀ i k, reg i k = byteAt (s.snapshot i) k) →
    (∀ address, s.acknowledges address = true ↔ address = .sevenBit s.i2c.address) ∧
    s.acknowledges (.sevenBit 0) = false ∧
    (∀ address n, s.acknowledges address = false → s.readTransaction address n = none) ∧
    (∀ n, ∃ bytes,
      s.readTransaction (.sevenBit s.i2c.address) n =
        some (bytes, { s with i2c := { s.i2c with pointer := n } }) ∧
      bytes.length = n ∧ ∀ k, k < n → bytes[k]? = some (reg s.i2c.index k)) ∧
    -- IDENT
    reg 0x00 0 = 216 ∧ reg 0x00 1 = 0 ∧ reg 0x00 2 = Config.revision ∧ reg 0x00 3 = 16 ∧
    reg 0x00 4 = 4 ∧ reg 0x00 5 = 16 ∧ reg 0x00 6 = 32 ∧ (∀ k, 7 ≤ k → reg 0x00 k = 0) ∧
    -- STATUS
    (reg 0x01 0).toNat = modeCode s.epoch.mode ∧ (reg 0x01 1).toNat = gateCode s.gate.state ∧
    (reg 0x01 2).getLsbD 0 = s.gate.armed.isSome ∧ (reg 0x01 2).getLsbD 1 = s.faultLevel ∧
    (reg 0x01 2).getLsbD 2 = s.ops.abortPending ∧ (reg 0x01 2).getLsbD 3 = s.ops.owed.timer ∧
    (reg 0x01 2).getLsbD 4 = s.ops.owed.pressure ∧
    (reg 0x01 2).getLsbD 5 = s.ops.owed.journalFault ∧
    (reg 0x01 2).getLsbD 6 = false ∧ (reg 0x01 2).getLsbD 7 = false ∧
    (s.ops.slot = none → ∀ k, 3 ≤ k → k ≤ 5 → reg 0x01 k = 0) ∧
    (∀ sl, s.ops.slot = some sl →
      (reg 0x01 3).toNat = operationCode sl.operation ∧ (reg 0x01 4).toNat = phaseCode sl.phase ∧
        (reg 0x01 5).toNat = sourceCode sl.source) ∧
    (s.events.queue.length ≤ 32 → (reg 0x01 6).toNat = s.events.queue.length) ∧
    (s.epoch.table.length ≤ 4 → (reg 0x01 7).toNat = s.epoch.table.length) ∧
    (∀ k, k < 6 → reg 0x01 (8 + k) = byteAt (BitVec.ofNat 48 s.epoch.counter) k) ∧
    (∀ k, 14 ≤ k → reg 0x01 k = 0) ∧
    -- JOURNAL_STATE
    (∀ k, k < 5 → reg 0x02 k = byteAt (BitVec.ofNat 40 s.journal.base) k) ∧
    (∀ k, k < 4 → reg 0x02 (8 + k) = byteAt (BitVec.ofNat 32 s.journal.capacity) k) ∧
    reg 0x02 12 = BitVec.ofNat 8 s.journal.depth ∧
    (∀ k, k < 8 →
      reg 0x02 (16 + k) = byteAt (BitVec.ofNat 64 s.journal.head) k ∧
      reg 0x02 (24 + k) = byteAt (BitVec.ofNat 64 s.journal.written) k ∧
      reg 0x02 (32 + k) = byteAt (BitVec.ofNat 64 s.journal.tail) k) ∧
    (∀ k, (5 ≤ k ∧ k < 8) ∨ (13 ≤ k ∧ k < 16) ∨ 40 ≤ k → reg 0x02 k = 0) ∧
    -- TIMER_CTL
    (∀ k, k < 3 → reg 0x03 k = byteAt (BitVec.ofNat 24 s.timer.nextInterval) k) ∧
    reg 0x03 3 = (if s.timer.extend then 1 else 0) ∧ (∀ k, 4 ≤ k → reg 0x03 k = 0) ∧
    -- CMD, PARAM, RESULT, ALERT_MASK
    reg 0x04 0 = s.mailbox.cmd ∧ (∀ k, 1 ≤ k → reg 0x04 k = 0) ∧
    (∀ k, reg 0x05 k = byteAt s.mailbox.param k) ∧
    (∀ k, reg 0x06 k = byteAt s.mailbox.result k) ∧
    (∀ (res : CommandResult) (reason : Reason) (code : Byte) (n : Nat),
      byteAt (resultHeader res reason code) 0 = BitVec.ofNat 8 (resultCode res) ∧
      byteAt (resultHeader res reason code) 1 = BitVec.ofNat 8 (reasonCode reason) ∧
      byteAt (resultHeader res reason code) 2 = code ∧
      (∀ k, 3 ≤ k → byteAt (resultHeader res reason code) k = 0) ∧
      doneReport n code res reason =
        ⟨.commandDone, 0, n,
          BitVec.ofNat 64 (code.toNat + resultCode res * 2 ^ 8 + reasonCode reason * 2 ^ 16), 1⟩) ∧
    (∀ k, reg 0x09 k = byteAt s.events.alertMask k) ∧
    -- EVENT
    (s.events.queue = [] → ∀ k, reg 0x07 k = 0) ∧
    (∀ e rest, s.events.queue = e :: rest →
      (∀ k, k < 2 →
        reg 0x07 k = byteAt (BitVec.ofNat 16 e.seq) k ∧
        reg 0x07 (18 + k) = byteAt (BitVec.ofNat 16 e.count) k) ∧
      (reg 0x07 2).toNat = kindCode e.kind ∧ (reg 0x07 3).toNat = e.requester.toNat ∧
      (∀ k, k < 6 → reg 0x07 (4 + k) = byteAt (BitVec.ofNat 48 e.epoch) k) ∧
      (∀ k, k < 8 → reg 0x07 (10 + k) = byteAt e.detail k) ∧ ∀ k, 20 ≤ k → reg 0x07 k = 0) ∧
    -- LAST_RECOVERY
    (reg 0x0A 0).toNat = outcomeCode s.recovery.outcome ∧
    (reg 0x0A 1).toNat = triggerCode s.recovery.trigger ∧
    (reg 0x0A 2).toNat = recoveryPhaseCode s.recovery.phase ∧
    reg 0x0A 3 = BitVec.ofNat 8 s.recovery.faults ∧
    (∀ k, k < 6 →
      reg 0x0A (4 + k) = byteAt (BitVec.ofNat 48 s.recovery.targetEpoch) k ∧
      reg 0x0A (10 + k) = byteAt (BitVec.ofNat 48 s.recovery.newEpoch) k) ∧
    (∀ k, k < 8 →
      reg 0x0A (16 + k) = byteAt (BitVec.ofNat 64 s.recovery.toRestore) k ∧
      reg 0x0A (24 + k) = byteAt (BitVec.ofNat 64 s.recovery.restored) k ∧
      reg 0x0A (32 + k) = byteAt (BitVec.ofNat 64 s.recovery.failingPosition) k) ∧
    (∀ k, 40 ≤ k → reg 0x0A k = 0) ∧
    -- EVENT_ACK and unassigned indexes
    (∀ i k, i = 0x08 ∨ 0x0A < i.toNat → reg i k = 0) ∧
    (s.alertLow = true ↔
      ∃ e ∈ s.events.queue, s.events.alertMask.getLsbD (kindCode e.kind - 1) = true)

/-! ### Records -/

/-- A record as the Journal Writer builds it reads back field by field and passes the four tests at its
own position with its own epoch (R23, R24, R25). -/
def Obligations.ABuiltRecordPasses : Prop :=
  ∀ (epoch position : Nat) (line : LineIndex) (requester : BitVec 4) (repeated : Bool) (image : Line),
    epoch < 2 ^ 48 →
    headerEpoch (buildHeader epoch position line requester repeated image) = epoch ∧
    (headerLine (buildHeader epoch position line requester repeated image)).toNat = line.toNat ∧
    (headerRequester (buildHeader epoch position line requester repeated image)).toNat =
      requester.toNat ∧
    (headerFlags (buildHeader epoch position line requester repeated image)).toNat = bit repeated ∧
    (headerLap (buildHeader epoch position line requester repeated image)).toNat = position % 256 ∧
    recordPasses position (some epoch) image
      (lineHeader (headerLineOf (buildHeader epoch position line requester repeated image))) = true

/-! ### Invariants -/

/-- The state right after reset satisfies every invariant below (R18, R37, R55, R79, R154, R181). -/
def Obligations.ResetIsSound : Prop :=
  State.reset.events.Ok ∧ State.reset.ResourcesOk ∧ State.reset.ModesOk ∧ State.reset.CommandOk ∧
    State.reset.RequestsOk ∧ State.reset.LedgerOk

/-- Every step keeps the Event Queue at most 32 events long, the 32nd place for EVENTS_LOST, and its
sequence numbers consecutive (R170, R171, R173). -/
def Obligations.EveryStepKeepsTheEventQueue : Prop :=
  ∀ s t : State, s.events.Ok → step s = .next t → t.events.Ok

/-- Every step keeps the bounds of the WAQ, the Capture Buffer, the LTT and the M port, the grants of
free Capture Buffer entries, and the arbiter's ages (R56, R65, R70, R71, R146, R149). -/
def Obligations.EveryStepKeepsTheResources : Prop :=
  ∀ s t : State, s.ResourcesOk → step s = .next t → t.ResourcesOk

/-- Every step keeps the ties between mode, slot, owed flags, countdown and gate (R1, R51, R81, R90, R97,
R129). -/
def Obligations.EveryStepKeepsModesAndGate : Prop :=
  ∀ s t : State, s.ModesOk → step s = .next t → t.ModesOk

/-- Every step keeps the ties between CMD, the slot, the scan, the engine and the record (R80, R81,
R112, R132, R135, R160). -/
def Obligations.EveryStepKeepsTheRunningCommand : Prop :=
  ∀ s t : State, s.CommandOk → step s = .next t → t.CommandOk

/-- Every step keeps one request for each READY, ISSUED and CAPTURING entry of the WAQ, and every head
decided (R57, R58, R61, R72). -/
def Obligations.EveryStepKeepsTheRequests : Prop :=
  ∀ s t : State, s.ResourcesOk → s.RequestsOk → step s = .next t → t.RequestsOk

/-- Every step keeps the Checkpoint Table and the journal positions as R4, R5 and R21 have them: tail at
most written at most head, head - tail at most C, 1 to D entries with the OPEN one newest, epochs rising,
starts never falling, the oldest start at tail; with them a running rollback's target in the table and the
records being written between written and head (R19, R26, R30, R113, R117). -/
def Obligations.EveryStepKeepsTheTable : Prop :=
  ∀ s t : State, s.ResourcesOk → s.ModesOk → s.CommandOk → s.RequestsOk → s.LedgerOk →
    step s = .next t → t.LedgerOk
end

