-- ==== Sys2Proof/Laws/State.lean ====
section
/-! SUPPORT. One lemma per field for each plain update of the state: what the update makes of the field.
Later proofs cite these and do not unfold an update. -/

namespace Sys2Proof.Machine

variable (s : State)

/-! ### report -/

@[simp] theorem State.report_resetPhase (r : Report) : (s.report r).resetPhase = s.resetPhase := rfl
@[simp] theorem State.report_epoch (r : Report) : (s.report r).epoch = s.epoch := rfl
@[simp] theorem State.report_journal (r : Report) : (s.report r).journal = s.journal := rfl
@[simp] theorem State.report_regions (r : Report) : (s.report r).regions = s.regions := rfl
@[simp] theorem State.report_gate (r : Report) : (s.report r).gate = s.gate := rfl
@[simp] theorem State.report_policy (r : Report) : (s.report r).policy = s.policy := rfl
@[simp] theorem State.report_waq (r : Report) : (s.report r).waq = s.waq := rfl
@[simp] theorem State.report_ltt (r : Report) : (s.report r).ltt = s.ltt := rfl
@[simp] theorem State.report_captures (r : Report) : (s.report r).captures = s.captures := rfl
@[simp] theorem State.report_ops (r : Report) : (s.report r).ops = s.ops := rfl
@[simp] theorem State.report_timer (r : Report) : (s.report r).timer = s.timer := rfl
@[simp] theorem State.report_engine (r : Report) : (s.report r).engine = s.engine := rfl
@[simp] theorem State.report_recovery (r : Report) : (s.report r).recovery = s.recovery := rfl
@[simp] theorem State.report_scan (r : Report) : (s.report r).scan = s.scan := rfl
@[simp] theorem State.report_inspect (r : Report) : (s.report r).inspect = s.inspect := rfl
@[simp] theorem State.report_mport (r : Report) : (s.report r).mport = s.mport := rfl
@[simp] theorem State.report_answers (r : Report) : (s.report r).answers = s.answers := rfl
@[simp] theorem State.report_i2c (r : Report) : (s.report r).i2c = s.i2c := rfl
@[simp] theorem State.report_mailbox (r : Report) : (s.report r).mailbox = s.mailbox := rfl
@[simp] theorem State.report_events (r : Report) :
    (s.report r).events =
      s.events.offer s.epoch.counter r := rfl
@[simp] theorem State.report_faultLevel (r : Report) : (s.report r).faultLevel = s.faultLevel := rfl
@[simp] theorem State.report_draws (r : Report) : (s.report r).draws = s.draws := rfl
@[simp] theorem State.report_pending (r : Report) : (s.report r).pending = s.pending := rfl

/-! ### reportLine -/

@[simp] theorem State.reportLine_resetPhase (k : EventKind) (q : BitVec 4) (l : LineIndex) :
    (s.reportLine k q l).resetPhase = s.resetPhase := rfl
@[simp] theorem State.reportLine_epoch (k : EventKind) (q : BitVec 4) (l : LineIndex) :
    (s.reportLine k q l).epoch = s.epoch := rfl
@[simp] theorem State.reportLine_journal (k : EventKind) (q : BitVec 4) (l : LineIndex) :
    (s.reportLine k q l).journal = s.journal := rfl
@[simp] theorem State.reportLine_regions (k : EventKind) (q : BitVec 4) (l : LineIndex) :
    (s.reportLine k q l).regions = s.regions := rfl
@[simp] theorem State.reportLine_gate (k : EventKind) (q : BitVec 4) (l : LineIndex) :
    (s.reportLine k q l).gate = s.gate := rfl
@[simp] theorem State.reportLine_policy (k : EventKind) (q : BitVec 4) (l : LineIndex) :
    (s.reportLine k q l).policy = s.policy := rfl
@[simp] theorem State.reportLine_waq (k : EventKind) (q : BitVec 4) (l : LineIndex) :
    (s.reportLine k q l).waq = s.waq := rfl
@[simp] theorem State.reportLine_ltt (k : EventKind) (q : BitVec 4) (l : LineIndex) :
    (s.reportLine k q l).ltt = s.ltt := rfl
@[simp] theorem State.reportLine_captures (k : EventKind) (q : BitVec 4) (l : LineIndex) :
    (s.reportLine k q l).captures = s.captures := rfl
@[simp] theorem State.reportLine_ops (k : EventKind) (q : BitVec 4) (l : LineIndex) :
    (s.reportLine k q l).ops = s.ops := rfl
@[simp] theorem State.reportLine_timer (k : EventKind) (q : BitVec 4) (l : LineIndex) :
    (s.reportLine k q l).timer = s.timer := rfl
@[simp] theorem State.reportLine_engine (k : EventKind) (q : BitVec 4) (l : LineIndex) :
    (s.reportLine k q l).engine = s.engine := rfl
@[simp] theorem State.reportLine_recovery (k : EventKind) (q : BitVec 4) (l : LineIndex) :
    (s.reportLine k q l).recovery = s.recovery := rfl
@[simp] theorem State.reportLine_scan (k : EventKind) (q : BitVec 4) (l : LineIndex) :
    (s.reportLine k q l).scan = s.scan := rfl
@[simp] theorem State.reportLine_inspect (k : EventKind) (q : BitVec 4) (l : LineIndex) :
    (s.reportLine k q l).inspect = s.inspect := rfl
@[simp] theorem State.reportLine_mport (k : EventKind) (q : BitVec 4) (l : LineIndex) :
    (s.reportLine k q l).mport = s.mport := rfl
@[simp] theorem State.reportLine_answers (k : EventKind) (q : BitVec 4) (l : LineIndex) :
    (s.reportLine k q l).answers = s.answers := rfl
@[simp] theorem State.reportLine_i2c (k : EventKind) (q : BitVec 4) (l : LineIndex) :
    (s.reportLine k q l).i2c = s.i2c := rfl
@[simp] theorem State.reportLine_mailbox (k : EventKind) (q : BitVec 4) (l : LineIndex) :
    (s.reportLine k q l).mailbox = s.mailbox := rfl
@[simp] theorem State.reportLine_events (k : EventKind) (q : BitVec 4) (l : LineIndex) :
    (s.reportLine k q l).events =
      s.events.offer s.epoch.counter ⟨k, q, s.epoch.counter, l.setWidth 64, 1⟩ := rfl
@[simp] theorem State.reportLine_faultLevel (k : EventKind) (q : BitVec 4) (l : LineIndex) :
    (s.reportLine k q l).faultLevel = s.faultLevel := rfl
@[simp] theorem State.reportLine_draws (k : EventKind) (q : BitVec 4) (l : LineIndex) :
    (s.reportLine k q l).draws = s.draws := rfl
@[simp] theorem State.reportLine_pending (k : EventKind) (q : BitVec 4) (l : LineIndex) :
    (s.reportLine k q l).pending = s.pending := rfl

/-! ### answer -/

@[simp] theorem State.answer_resetPhase (q : BitVec 4) (g : BitVec 6) (a : Reply) :
    (s.answer q g a).resetPhase = s.resetPhase := rfl
@[simp] theorem State.answer_epoch (q : BitVec 4) (g : BitVec 6) (a : Reply) :
    (s.answer q g a).epoch = s.epoch := rfl
@[simp] theorem State.answer_journal (q : BitVec 4) (g : BitVec 6) (a : Reply) :
    (s.answer q g a).journal = s.journal := rfl
@[simp] theorem State.answer_regions (q : BitVec 4) (g : BitVec 6) (a : Reply) :
    (s.answer q g a).regions = s.regions := rfl
@[simp] theorem State.answer_gate (q : BitVec 4) (g : BitVec 6) (a : Reply) :
    (s.answer q g a).gate = s.gate := rfl
@[simp] theorem State.answer_policy (q : BitVec 4) (g : BitVec 6) (a : Reply) :
    (s.answer q g a).policy = s.policy := rfl
@[simp] theorem State.answer_waq (q : BitVec 4) (g : BitVec 6) (a : Reply) :
    (s.answer q g a).waq = s.waq := rfl
@[simp] theorem State.answer_ltt (q : BitVec 4) (g : BitVec 6) (a : Reply) :
    (s.answer q g a).ltt = s.ltt := rfl
@[simp] theorem State.answer_captures (q : BitVec 4) (g : BitVec 6) (a : Reply) :
    (s.answer q g a).captures = s.captures := rfl
@[simp] theorem State.answer_ops (q : BitVec 4) (g : BitVec 6) (a : Reply) :
    (s.answer q g a).ops = s.ops := rfl
@[simp] theorem State.answer_timer (q : BitVec 4) (g : BitVec 6) (a : Reply) :
    (s.answer q g a).timer = s.timer := rfl
@[simp] theorem State.answer_engine (q : BitVec 4) (g : BitVec 6) (a : Reply) :
    (s.answer q g a).engine = s.engine := rfl
@[simp] theorem State.answer_recovery (q : BitVec 4) (g : BitVec 6) (a : Reply) :
    (s.answer q g a).recovery = s.recovery := rfl
@[simp] theorem State.answer_scan (q : BitVec 4) (g : BitVec 6) (a : Reply) :
    (s.answer q g a).scan = s.scan := rfl
@[simp] theorem State.answer_inspect (q : BitVec 4) (g : BitVec 6) (a : Reply) :
    (s.answer q g a).inspect = s.inspect := rfl
@[simp] theorem State.answer_mport (q : BitVec 4) (g : BitVec 6) (a : Reply) :
    (s.answer q g a).mport = s.mport := rfl
@[simp] theorem State.answer_answers (q : BitVec 4) (g : BitVec 6) (a : Reply) :
    (s.answer q g a).answers =
      s.answers ++ [⟨q, g, a⟩] := rfl
@[simp] theorem State.answer_i2c (q : BitVec 4) (g : BitVec 6) (a : Reply) :
    (s.answer q g a).i2c = s.i2c := rfl
@[simp] theorem State.answer_mailbox (q : BitVec 4) (g : BitVec 6) (a : Reply) :
    (s.answer q g a).mailbox = s.mailbox := rfl
@[simp] theorem State.answer_events (q : BitVec 4) (g : BitVec 6) (a : Reply) :
    (s.answer q g a).events = s.events := rfl
@[simp] theorem State.answer_faultLevel (q : BitVec 4) (g : BitVec 6) (a : Reply) :
    (s.answer q g a).faultLevel = s.faultLevel := rfl
@[simp] theorem State.answer_draws (q : BitVec 4) (g : BitVec 6) (a : Reply) :
    (s.answer q g a).draws = s.draws := rfl
@[simp] theorem State.answer_pending (q : BitVec 4) (g : BitVec 6) (a : Reply) :
    (s.answer q g a).pending = s.pending := rfl

/-! ### refuse -/

@[simp] theorem State.refuse_resetPhase (t : Transaction) : (s.refuse t).resetPhase = s.resetPhase := rfl
@[simp] theorem State.refuse_epoch (t : Transaction) : (s.refuse t).epoch = s.epoch := rfl
@[simp] theorem State.refuse_journal (t : Transaction) : (s.refuse t).journal = s.journal := rfl
@[simp] theorem State.refuse_regions (t : Transaction) : (s.refuse t).regions = s.regions := rfl
@[simp] theorem State.refuse_gate (t : Transaction) : (s.refuse t).gate = s.gate := rfl
@[simp] theorem State.refuse_policy (t : Transaction) : (s.refuse t).policy = s.policy := rfl
@[simp] theorem State.refuse_waq (t : Transaction) : (s.refuse t).waq = s.waq := rfl
@[simp] theorem State.refuse_ltt (t : Transaction) : (s.refuse t).ltt = s.ltt := rfl
@[simp] theorem State.refuse_captures (t : Transaction) : (s.refuse t).captures = s.captures := rfl
@[simp] theorem State.refuse_ops (t : Transaction) : (s.refuse t).ops = s.ops := rfl
@[simp] theorem State.refuse_timer (t : Transaction) : (s.refuse t).timer = s.timer := rfl
@[simp] theorem State.refuse_engine (t : Transaction) : (s.refuse t).engine = s.engine := rfl
@[simp] theorem State.refuse_recovery (t : Transaction) : (s.refuse t).recovery = s.recovery := rfl
@[simp] theorem State.refuse_scan (t : Transaction) : (s.refuse t).scan = s.scan := rfl
@[simp] theorem State.refuse_inspect (t : Transaction) : (s.refuse t).inspect = s.inspect := rfl
@[simp] theorem State.refuse_mport (t : Transaction) : (s.refuse t).mport = s.mport := rfl
@[simp] theorem State.refuse_answers (t : Transaction) :
    (s.refuse t).answers =
      s.answers ++ [⟨t.requester, t.tag, .error⟩] := rfl
@[simp] theorem State.refuse_i2c (t : Transaction) : (s.refuse t).i2c = s.i2c := rfl
@[simp] theorem State.refuse_mailbox (t : Transaction) : (s.refuse t).mailbox = s.mailbox := rfl
@[simp] theorem State.refuse_events (t : Transaction) :
    (s.refuse t).events =
      s.events.offer s.epoch.counter
        ⟨refusalKind t.kind, t.requester, s.epoch.counter, t.line.setWidth 64, 1⟩ := rfl
@[simp] theorem State.refuse_faultLevel (t : Transaction) : (s.refuse t).faultLevel = s.faultLevel := rfl
@[simp] theorem State.refuse_draws (t : Transaction) : (s.refuse t).draws = s.draws := rfl
@[simp] theorem State.refuse_pending (t : Transaction) : (s.refuse t).pending = s.pending := rfl

/-! ### join -/

@[simp] theorem State.join_resetPhase (o : Owner) (k : Access) (a : Addr) (n : Nat) (m : BitVec 64) (d : Line) :
    (s.join o k a n m d).resetPhase = s.resetPhase := rfl
@[simp] theorem State.join_epoch (o : Owner) (k : Access) (a : Addr) (n : Nat) (m : BitVec 64) (d : Line) :
    (s.join o k a n m d).epoch = s.epoch := rfl
@[simp] theorem State.join_journal (o : Owner) (k : Access) (a : Addr) (n : Nat) (m : BitVec 64) (d : Line) :
    (s.join o k a n m d).journal = s.journal := rfl
@[simp] theorem State.join_regions (o : Owner) (k : Access) (a : Addr) (n : Nat) (m : BitVec 64) (d : Line) :
    (s.join o k a n m d).regions = s.regions := rfl
@[simp] theorem State.join_gate (o : Owner) (k : Access) (a : Addr) (n : Nat) (m : BitVec 64) (d : Line) :
    (s.join o k a n m d).gate = s.gate := rfl
@[simp] theorem State.join_policy (o : Owner) (k : Access) (a : Addr) (n : Nat) (m : BitVec 64) (d : Line) :
    (s.join o k a n m d).policy = s.policy := rfl
@[simp] theorem State.join_waq (o : Owner) (k : Access) (a : Addr) (n : Nat) (m : BitVec 64) (d : Line) :
    (s.join o k a n m d).waq = s.waq := rfl
@[simp] theorem State.join_ltt (o : Owner) (k : Access) (a : Addr) (n : Nat) (m : BitVec 64) (d : Line) :
    (s.join o k a n m d).ltt = s.ltt := rfl
@[simp] theorem State.join_captures (o : Owner) (k : Access) (a : Addr) (n : Nat) (m : BitVec 64) (d : Line) :
    (s.join o k a n m d).captures = s.captures := rfl
@[simp] theorem State.join_ops (o : Owner) (k : Access) (a : Addr) (n : Nat) (m : BitVec 64) (d : Line) :
    (s.join o k a n m d).ops = s.ops := rfl
@[simp] theorem State.join_timer (o : Owner) (k : Access) (a : Addr) (n : Nat) (m : BitVec 64) (d : Line) :
    (s.join o k a n m d).timer = s.timer := rfl
@[simp] theorem State.join_engine (o : Owner) (k : Access) (a : Addr) (n : Nat) (m : BitVec 64) (d : Line) :
    (s.join o k a n m d).engine = s.engine := rfl
@[simp] theorem State.join_recovery (o : Owner) (k : Access) (a : Addr) (n : Nat) (m : BitVec 64) (d : Line) :
    (s.join o k a n m d).recovery = s.recovery := rfl
@[simp] theorem State.join_scan (o : Owner) (k : Access) (a : Addr) (n : Nat) (m : BitVec 64) (d : Line) :
    (s.join o k a n m d).scan = s.scan := rfl
@[simp] theorem State.join_inspect (o : Owner) (k : Access) (a : Addr) (n : Nat) (m : BitVec 64) (d : Line) :
    (s.join o k a n m d).inspect = s.inspect := rfl
@[simp] theorem State.join_mport (o : Owner) (k : Access) (a : Addr) (n : Nat) (m : BitVec 64) (d : Line) :
    (s.join o k a n m d).mport =
      { s.mport with waiting := s.mport.waiting ++ [⟨o, k, a, n, m, d, s.mport.ageClock⟩] } := rfl
@[simp] theorem State.join_answers (o : Owner) (k : Access) (a : Addr) (n : Nat) (m : BitVec 64) (d : Line) :
    (s.join o k a n m d).answers = s.answers := rfl
@[simp] theorem State.join_i2c (o : Owner) (k : Access) (a : Addr) (n : Nat) (m : BitVec 64) (d : Line) :
    (s.join o k a n m d).i2c = s.i2c := rfl
@[simp] theorem State.join_mailbox (o : Owner) (k : Access) (a : Addr) (n : Nat) (m : BitVec 64) (d : Line) :
    (s.join o k a n m d).mailbox = s.mailbox := rfl
@[simp] theorem State.join_events (o : Owner) (k : Access) (a : Addr) (n : Nat) (m : BitVec 64) (d : Line) :
    (s.join o k a n m d).events = s.events := rfl
@[simp] theorem State.join_faultLevel (o : Owner) (k : Access) (a : Addr) (n : Nat) (m : BitVec 64) (d : Line) :
    (s.join o k a n m d).faultLevel = s.faultLevel := rfl
@[simp] theorem State.join_draws (o : Owner) (k : Access) (a : Addr) (n : Nat) (m : BitVec 64) (d : Line) :
    (s.join o k a n m d).draws = s.draws := rfl
@[simp] theorem State.join_pending (o : Owner) (k : Access) (a : Addr) (n : Nat) (m : BitVec 64) (d : Line) :
    (s.join o k a n m d).pending = s.pending := rfl

/-! ### joinLineRead -/

@[simp] theorem State.joinLineRead_resetPhase (o : Owner) (a : Addr) :
    (s.joinLineRead o a).resetPhase = s.resetPhase := rfl
@[simp] theorem State.joinLineRead_epoch (o : Owner) (a : Addr) :
    (s.joinLineRead o a).epoch = s.epoch := rfl
@[simp] theorem State.joinLineRead_journal (o : Owner) (a : Addr) :
    (s.joinLineRead o a).journal = s.journal := rfl
@[simp] theorem State.joinLineRead_regions (o : Owner) (a : Addr) :
    (s.joinLineRead o a).regions = s.regions := rfl
@[simp] theorem State.joinLineRead_gate (o : Owner) (a : Addr) : (s.joinLineRead o a).gate = s.gate := rfl
@[simp] theorem State.joinLineRead_policy (o : Owner) (a : Addr) :
    (s.joinLineRead o a).policy = s.policy := rfl
@[simp] theorem State.joinLineRead_waq (o : Owner) (a : Addr) : (s.joinLineRead o a).waq = s.waq := rfl
@[simp] theorem State.joinLineRead_ltt (o : Owner) (a : Addr) : (s.joinLineRead o a).ltt = s.ltt := rfl
@[simp] theorem State.joinLineRead_captures (o : Owner) (a : Addr) :
    (s.joinLineRead o a).captures = s.captures := rfl
@[simp] theorem State.joinLineRead_ops (o : Owner) (a : Addr) : (s.joinLineRead o a).ops = s.ops := rfl
@[simp] theorem State.joinLineRead_timer (o : Owner) (a : Addr) :
    (s.joinLineRead o a).timer = s.timer := rfl
@[simp] theorem State.joinLineRead_engine (o : Owner) (a : Addr) :
    (s.joinLineRead o a).engine = s.engine := rfl
@[simp] theorem State.joinLineRead_recovery (o : Owner) (a : Addr) :
    (s.joinLineRead o a).recovery = s.recovery := rfl
@[simp] theorem State.joinLineRead_scan (o : Owner) (a : Addr) : (s.joinLineRead o a).scan = s.scan := rfl
@[simp] theorem State.joinLineRead_inspect (o : Owner) (a : Addr) :
    (s.joinLineRead o a).inspect = s.inspect := rfl
@[simp] theorem State.joinLineRead_mport (o : Owner) (a : Addr) :
    (s.joinLineRead o a).mport =
      { s.mport with waiting := s.mport.waiting ++ [⟨o, .read, a, 64, 0, 0, s.mport.ageClock⟩] } := rfl
@[simp] theorem State.joinLineRead_answers (o : Owner) (a : Addr) :
    (s.joinLineRead o a).answers = s.answers := rfl
@[simp] theorem State.joinLineRead_i2c (o : Owner) (a : Addr) : (s.joinLineRead o a).i2c = s.i2c := rfl
@[simp] theorem State.joinLineRead_mailbox (o : Owner) (a : Addr) :
    (s.joinLineRead o a).mailbox = s.mailbox := rfl
@[simp] theorem State.joinLineRead_events (o : Owner) (a : Addr) :
    (s.joinLineRead o a).events = s.events := rfl
@[simp] theorem State.joinLineRead_faultLevel (o : Owner) (a : Addr) :
    (s.joinLineRead o a).faultLevel = s.faultLevel := rfl
@[simp] theorem State.joinLineRead_draws (o : Owner) (a : Addr) :
    (s.joinLineRead o a).draws = s.draws := rfl
@[simp] theorem State.joinLineRead_pending (o : Owner) (a : Addr) :
    (s.joinLineRead o a).pending = s.pending := rfl

/-! ### joinLineWrite -/

@[simp] theorem State.joinLineWrite_resetPhase (o : Owner) (a : Addr) (d : Line) :
    (s.joinLineWrite o a d).resetPhase = s.resetPhase := rfl
@[simp] theorem State.joinLineWrite_epoch (o : Owner) (a : Addr) (d : Line) :
    (s.joinLineWrite o a d).epoch = s.epoch := rfl
@[simp] theorem State.joinLineWrite_journal (o : Owner) (a : Addr) (d : Line) :
    (s.joinLineWrite o a d).journal = s.journal := rfl
@[simp] theorem State.joinLineWrite_regions (o : Owner) (a : Addr) (d : Line) :
    (s.joinLineWrite o a d).regions = s.regions := rfl
@[simp] theorem State.joinLineWrite_gate (o : Owner) (a : Addr) (d : Line) :
    (s.joinLineWrite o a d).gate = s.gate := rfl
@[simp] theorem State.joinLineWrite_policy (o : Owner) (a : Addr) (d : Line) :
    (s.joinLineWrite o a d).policy = s.policy := rfl
@[simp] theorem State.joinLineWrite_waq (o : Owner) (a : Addr) (d : Line) :
    (s.joinLineWrite o a d).waq = s.waq := rfl
@[simp] theorem State.joinLineWrite_ltt (o : Owner) (a : Addr) (d : Line) :
    (s.joinLineWrite o a d).ltt = s.ltt := rfl
@[simp] theorem State.joinLineWrite_captures (o : Owner) (a : Addr) (d : Line) :
    (s.joinLineWrite o a d).captures = s.captures := rfl
@[simp] theorem State.joinLineWrite_ops (o : Owner) (a : Addr) (d : Line) :
    (s.joinLineWrite o a d).ops = s.ops := rfl
@[simp] theorem State.joinLineWrite_timer (o : Owner) (a : Addr) (d : Line) :
    (s.joinLineWrite o a d).timer = s.timer := rfl
@[simp] theorem State.joinLineWrite_engine (o : Owner) (a : Addr) (d : Line) :
    (s.joinLineWrite o a d).engine = s.engine := rfl
@[simp] theorem State.joinLineWrite_recovery (o : Owner) (a : Addr) (d : Line) :
    (s.joinLineWrite o a d).recovery = s.recovery := rfl
@[simp] theorem State.joinLineWrite_scan (o : Owner) (a : Addr) (d : Line) :
    (s.joinLineWrite o a d).scan = s.scan := rfl
@[simp] theorem State.joinLineWrite_inspect (o : Owner) (a : Addr) (d : Line) :
    (s.joinLineWrite o a d).inspect = s.inspect := rfl
@[simp] theorem State.joinLineWrite_mport (o : Owner) (a : Addr) (d : Line) :
    (s.joinLineWrite o a d).mport =
      { s.mport with
        waiting := s.mport.waiting ++ [⟨o, .write, a, 64, BitVec.allOnes 64, d, s.mport.ageClock⟩] } := rfl
@[simp] theorem State.joinLineWrite_answers (o : Owner) (a : Addr) (d : Line) :
    (s.joinLineWrite o a d).answers = s.answers := rfl
@[simp] theorem State.joinLineWrite_i2c (o : Owner) (a : Addr) (d : Line) :
    (s.joinLineWrite o a d).i2c = s.i2c := rfl
@[simp] theorem State.joinLineWrite_mailbox (o : Owner) (a : Addr) (d : Line) :
    (s.joinLineWrite o a d).mailbox = s.mailbox := rfl
@[simp] theorem State.joinLineWrite_events (o : Owner) (a : Addr) (d : Line) :
    (s.joinLineWrite o a d).events = s.events := rfl
@[simp] theorem State.joinLineWrite_faultLevel (o : Owner) (a : Addr) (d : Line) :
    (s.joinLineWrite o a d).faultLevel = s.faultLevel := rfl
@[simp] theorem State.joinLineWrite_draws (o : Owner) (a : Addr) (d : Line) :
    (s.joinLineWrite o a d).draws = s.draws := rfl
@[simp] theorem State.joinLineWrite_pending (o : Owner) (a : Addr) (d : Line) :
    (s.joinLineWrite o a d).pending = s.pending := rfl

/-! ### withdraw -/

@[simp] theorem State.withdraw_resetPhase (o : Owner) : (s.withdraw o).resetPhase = s.resetPhase := rfl
@[simp] theorem State.withdraw_epoch (o : Owner) : (s.withdraw o).epoch = s.epoch := rfl
@[simp] theorem State.withdraw_journal (o : Owner) : (s.withdraw o).journal = s.journal := rfl
@[simp] theorem State.withdraw_regions (o : Owner) : (s.withdraw o).regions = s.regions := rfl
@[simp] theorem State.withdraw_gate (o : Owner) : (s.withdraw o).gate = s.gate := rfl
@[simp] theorem State.withdraw_policy (o : Owner) : (s.withdraw o).policy = s.policy := rfl
@[simp] theorem State.withdraw_waq (o : Owner) : (s.withdraw o).waq = s.waq := rfl
@[simp] theorem State.withdraw_ltt (o : Owner) : (s.withdraw o).ltt = s.ltt := rfl
@[simp] theorem State.withdraw_captures (o : Owner) : (s.withdraw o).captures = s.captures := rfl
@[simp] theorem State.withdraw_ops (o : Owner) : (s.withdraw o).ops = s.ops := rfl
@[simp] theorem State.withdraw_timer (o : Owner) : (s.withdraw o).timer = s.timer := rfl
@[simp] theorem State.withdraw_engine (o : Owner) : (s.withdraw o).engine = s.engine := rfl
@[simp] theorem State.withdraw_recovery (o : Owner) : (s.withdraw o).recovery = s.recovery := rfl
@[simp] theorem State.withdraw_scan (o : Owner) : (s.withdraw o).scan = s.scan := rfl
@[simp] theorem State.withdraw_inspect (o : Owner) : (s.withdraw o).inspect = s.inspect := rfl
@[simp] theorem State.withdraw_mport (o : Owner) :
    (s.withdraw o).mport =
      { s.mport with waiting := s.mport.waiting.filter fun r => r.owner != o } := rfl
@[simp] theorem State.withdraw_answers (o : Owner) : (s.withdraw o).answers = s.answers := rfl
@[simp] theorem State.withdraw_i2c (o : Owner) : (s.withdraw o).i2c = s.i2c := rfl
@[simp] theorem State.withdraw_mailbox (o : Owner) : (s.withdraw o).mailbox = s.mailbox := rfl
@[simp] theorem State.withdraw_events (o : Owner) : (s.withdraw o).events = s.events := rfl
@[simp] theorem State.withdraw_faultLevel (o : Owner) : (s.withdraw o).faultLevel = s.faultLevel := rfl
@[simp] theorem State.withdraw_draws (o : Owner) : (s.withdraw o).draws = s.draws := rfl
@[simp] theorem State.withdraw_pending (o : Owner) : (s.withdraw o).pending = s.pending := rfl

/-! ### abandon -/

@[simp] theorem State.abandon_resetPhase (o : Owner) : (s.abandon o).resetPhase = s.resetPhase := rfl
@[simp] theorem State.abandon_epoch (o : Owner) : (s.abandon o).epoch = s.epoch := rfl
@[simp] theorem State.abandon_journal (o : Owner) : (s.abandon o).journal = s.journal := rfl
@[simp] theorem State.abandon_regions (o : Owner) : (s.abandon o).regions = s.regions := rfl
@[simp] theorem State.abandon_gate (o : Owner) : (s.abandon o).gate = s.gate := rfl
@[simp] theorem State.abandon_policy (o : Owner) : (s.abandon o).policy = s.policy := rfl
@[simp] theorem State.abandon_waq (o : Owner) : (s.abandon o).waq = s.waq := rfl
@[simp] theorem State.abandon_ltt (o : Owner) : (s.abandon o).ltt = s.ltt := rfl
@[simp] theorem State.abandon_captures (o : Owner) : (s.abandon o).captures = s.captures := rfl
@[simp] theorem State.abandon_ops (o : Owner) : (s.abandon o).ops = s.ops := rfl
@[simp] theorem State.abandon_timer (o : Owner) : (s.abandon o).timer = s.timer := rfl
@[simp] theorem State.abandon_engine (o : Owner) : (s.abandon o).engine = s.engine := rfl
@[simp] theorem State.abandon_recovery (o : Owner) : (s.abandon o).recovery = s.recovery := rfl
@[simp] theorem State.abandon_scan (o : Owner) : (s.abandon o).scan = s.scan := rfl
@[simp] theorem State.abandon_inspect (o : Owner) : (s.abandon o).inspect = s.inspect := rfl
@[simp] theorem State.abandon_answers (o : Owner) : (s.abandon o).answers = s.answers := rfl
@[simp] theorem State.abandon_i2c (o : Owner) : (s.abandon o).i2c = s.i2c := rfl
@[simp] theorem State.abandon_mailbox (o : Owner) : (s.abandon o).mailbox = s.mailbox := rfl
@[simp] theorem State.abandon_events (o : Owner) : (s.abandon o).events = s.events := rfl
@[simp] theorem State.abandon_faultLevel (o : Owner) : (s.abandon o).faultLevel = s.faultLevel := rfl
@[simp] theorem State.abandon_draws (o : Owner) : (s.abandon o).draws = s.draws := rfl
@[simp] theorem State.abandon_pending (o : Owner) : (s.abandon o).pending = s.pending := rfl

/-! ### setWaqState -/

@[simp] theorem State.setWaqState_resetPhase (q : BitVec 4) (g : BitVec 6) (st : WaqState) :
    (s.setWaqState q g st).resetPhase = s.resetPhase := rfl
@[simp] theorem State.setWaqState_epoch (q : BitVec 4) (g : BitVec 6) (st : WaqState) :
    (s.setWaqState q g st).epoch = s.epoch := rfl
@[simp] theorem State.setWaqState_journal (q : BitVec 4) (g : BitVec 6) (st : WaqState) :
    (s.setWaqState q g st).journal = s.journal := rfl
@[simp] theorem State.setWaqState_regions (q : BitVec 4) (g : BitVec 6) (st : WaqState) :
    (s.setWaqState q g st).regions = s.regions := rfl
@[simp] theorem State.setWaqState_gate (q : BitVec 4) (g : BitVec 6) (st : WaqState) :
    (s.setWaqState q g st).gate = s.gate := rfl
@[simp] theorem State.setWaqState_policy (q : BitVec 4) (g : BitVec 6) (st : WaqState) :
    (s.setWaqState q g st).policy = s.policy := rfl
@[simp] theorem State.setWaqState_waq (q : BitVec 4) (g : BitVec 6) (st : WaqState) :
    (s.setWaqState q g st).waq =
      s.waq.map fun e => if e.keyIs q g then { e with state := st } else e := rfl
@[simp] theorem State.setWaqState_ltt (q : BitVec 4) (g : BitVec 6) (st : WaqState) :
    (s.setWaqState q g st).ltt = s.ltt := rfl
@[simp] theorem State.setWaqState_captures (q : BitVec 4) (g : BitVec 6) (st : WaqState) :
    (s.setWaqState q g st).captures = s.captures := rfl
@[simp] theorem State.setWaqState_ops (q : BitVec 4) (g : BitVec 6) (st : WaqState) :
    (s.setWaqState q g st).ops = s.ops := rfl
@[simp] theorem State.setWaqState_timer (q : BitVec 4) (g : BitVec 6) (st : WaqState) :
    (s.setWaqState q g st).timer = s.timer := rfl
@[simp] theorem State.setWaqState_engine (q : BitVec 4) (g : BitVec 6) (st : WaqState) :
    (s.setWaqState q g st).engine = s.engine := rfl
@[simp] theorem State.setWaqState_recovery (q : BitVec 4) (g : BitVec 6) (st : WaqState) :
    (s.setWaqState q g st).recovery = s.recovery := rfl
@[simp] theorem State.setWaqState_scan (q : BitVec 4) (g : BitVec 6) (st : WaqState) :
    (s.setWaqState q g st).scan = s.scan := rfl
@[simp] theorem State.setWaqState_inspect (q : BitVec 4) (g : BitVec 6) (st : WaqState) :
    (s.setWaqState q g st).inspect = s.inspect := rfl
@[simp] theorem State.setWaqState_mport (q : BitVec 4) (g : BitVec 6) (st : WaqState) :
    (s.setWaqState q g st).mport = s.mport := rfl
@[simp] theorem State.setWaqState_answers (q : BitVec 4) (g : BitVec 6) (st : WaqState) :
    (s.setWaqState q g st).answers = s.answers := rfl
@[simp] theorem State.setWaqState_i2c (q : BitVec 4) (g : BitVec 6) (st : WaqState) :
    (s.setWaqState q g st).i2c = s.i2c := rfl
@[simp] theorem State.setWaqState_mailbox (q : BitVec 4) (g : BitVec 6) (st : WaqState) :
    (s.setWaqState q g st).mailbox = s.mailbox := rfl
@[simp] theorem State.setWaqState_events (q : BitVec 4) (g : BitVec 6) (st : WaqState) :
    (s.setWaqState q g st).events = s.events := rfl
@[simp] theorem State.setWaqState_faultLevel (q : BitVec 4) (g : BitVec 6) (st : WaqState) :
    (s.setWaqState q g st).faultLevel = s.faultLevel := rfl
@[simp] theorem State.setWaqState_draws (q : BitVec 4) (g : BitVec 6) (st : WaqState) :
    (s.setWaqState q g st).draws = s.draws := rfl
@[simp] theorem State.setWaqState_pending (q : BitVec 4) (g : BitVec 6) (st : WaqState) :
    (s.setWaqState q g st).pending = s.pending := rfl

/-! ### removeWaq -/

@[simp] theorem State.removeWaq_resetPhase (q : BitVec 4) (g : BitVec 6) :
    (s.removeWaq q g).resetPhase = s.resetPhase := rfl
@[simp] theorem State.removeWaq_epoch (q : BitVec 4) (g : BitVec 6) :
    (s.removeWaq q g).epoch = s.epoch := rfl
@[simp] theorem State.removeWaq_journal (q : BitVec 4) (g : BitVec 6) :
    (s.removeWaq q g).journal = s.journal := rfl
@[simp] theorem State.removeWaq_regions (q : BitVec 4) (g : BitVec 6) :
    (s.removeWaq q g).regions = s.regions := rfl
@[simp] theorem State.removeWaq_gate (q : BitVec 4) (g : BitVec 6) : (s.removeWaq q g).gate = s.gate := rfl
@[simp] theorem State.removeWaq_policy (q : BitVec 4) (g : BitVec 6) :
    (s.removeWaq q g).policy = s.policy := rfl
@[simp] theorem State.removeWaq_waq (q : BitVec 4) (g : BitVec 6) :
    (s.removeWaq q g).waq =
      s.waq.filter fun e => !e.keyIs q g := rfl
@[simp] theorem State.removeWaq_ltt (q : BitVec 4) (g : BitVec 6) : (s.removeWaq q g).ltt = s.ltt := rfl
@[simp] theorem State.removeWaq_captures (q : BitVec 4) (g : BitVec 6) :
    (s.removeWaq q g).captures = s.captures := rfl
@[simp] theorem State.removeWaq_ops (q : BitVec 4) (g : BitVec 6) : (s.removeWaq q g).ops = s.ops := rfl
@[simp] theorem State.removeWaq_timer (q : BitVec 4) (g : BitVec 6) :
    (s.removeWaq q g).timer = s.timer := rfl
@[simp] theorem State.removeWaq_engine (q : BitVec 4) (g : BitVec 6) :
    (s.removeWaq q g).engine = s.engine := rfl
@[simp] theorem State.removeWaq_recovery (q : BitVec 4) (g : BitVec 6) :
    (s.removeWaq q g).recovery = s.recovery := rfl
@[simp] theorem State.removeWaq_scan (q : BitVec 4) (g : BitVec 6) : (s.removeWaq q g).scan = s.scan := rfl
@[simp] theorem State.removeWaq_inspect (q : BitVec 4) (g : BitVec 6) :
    (s.removeWaq q g).inspect = s.inspect := rfl
@[simp] theorem State.removeWaq_mport (q : BitVec 4) (g : BitVec 6) :
    (s.removeWaq q g).mport = s.mport := rfl
@[simp] theorem State.removeWaq_answers (q : BitVec 4) (g : BitVec 6) :
    (s.removeWaq q g).answers = s.answers := rfl
@[simp] theorem State.removeWaq_i2c (q : BitVec 4) (g : BitVec 6) : (s.removeWaq q g).i2c = s.i2c := rfl
@[simp] theorem State.removeWaq_mailbox (q : BitVec 4) (g : BitVec 6) :
    (s.removeWaq q g).mailbox = s.mailbox := rfl
@[simp] theorem State.removeWaq_events (q : BitVec 4) (g : BitVec 6) :
    (s.removeWaq q g).events = s.events := rfl
@[simp] theorem State.removeWaq_faultLevel (q : BitVec 4) (g : BitVec 6) :
    (s.removeWaq q g).faultLevel = s.faultLevel := rfl
@[simp] theorem State.removeWaq_draws (q : BitVec 4) (g : BitVec 6) :
    (s.removeWaq q g).draws = s.draws := rfl
@[simp] theorem State.removeWaq_pending (q : BitVec 4) (g : BitVec 6) :
    (s.removeWaq q g).pending = s.pending := rfl

/-! ### grantCapture -/

@[simp] theorem State.grantCapture_resetPhase (t : Transaction) :
    (s.grantCapture t).resetPhase = s.resetPhase := rfl
@[simp] theorem State.grantCapture_epoch (t : Transaction) : (s.grantCapture t).epoch = s.epoch := rfl
@[simp] theorem State.grantCapture_journal (t : Transaction) : (s.grantCapture t).journal = s.journal := rfl
@[simp] theorem State.grantCapture_regions (t : Transaction) : (s.grantCapture t).regions = s.regions := rfl
@[simp] theorem State.grantCapture_gate (t : Transaction) : (s.grantCapture t).gate = s.gate := rfl
@[simp] theorem State.grantCapture_policy (t : Transaction) : (s.grantCapture t).policy = s.policy := rfl
@[simp] theorem State.grantCapture_ltt (t : Transaction) : (s.grantCapture t).ltt = s.ltt := rfl
@[simp] theorem State.grantCapture_captures (t : Transaction) :
    (s.grantCapture t).captures =
      s.captures ++ [⟨t.line, t.requester, t.tag, .reading⟩] := rfl
@[simp] theorem State.grantCapture_ops (t : Transaction) : (s.grantCapture t).ops = s.ops := rfl
@[simp] theorem State.grantCapture_timer (t : Transaction) : (s.grantCapture t).timer = s.timer := rfl
@[simp] theorem State.grantCapture_engine (t : Transaction) : (s.grantCapture t).engine = s.engine := rfl
@[simp] theorem State.grantCapture_recovery (t : Transaction) :
    (s.grantCapture t).recovery = s.recovery := rfl
@[simp] theorem State.grantCapture_scan (t : Transaction) : (s.grantCapture t).scan = s.scan := rfl
@[simp] theorem State.grantCapture_inspect (t : Transaction) : (s.grantCapture t).inspect = s.inspect := rfl
@[simp] theorem State.grantCapture_mport (t : Transaction) :
    (s.grantCapture t).mport =
      { s.mport with
        waiting := s.mport.waiting ++
          [⟨.capture t.requester t.tag, .read, addrOfLine t.line, 64, 0, 0, s.mport.ageClock⟩] } := rfl
@[simp] theorem State.grantCapture_answers (t : Transaction) : (s.grantCapture t).answers = s.answers := rfl
@[simp] theorem State.grantCapture_i2c (t : Transaction) : (s.grantCapture t).i2c = s.i2c := rfl
@[simp] theorem State.grantCapture_mailbox (t : Transaction) : (s.grantCapture t).mailbox = s.mailbox := rfl
@[simp] theorem State.grantCapture_events (t : Transaction) : (s.grantCapture t).events = s.events := rfl
@[simp] theorem State.grantCapture_faultLevel (t : Transaction) :
    (s.grantCapture t).faultLevel = s.faultLevel := rfl
@[simp] theorem State.grantCapture_draws (t : Transaction) : (s.grantCapture t).draws = s.draws := rfl
@[simp] theorem State.grantCapture_pending (t : Transaction) : (s.grantCapture t).pending = s.pending := rfl

/-! ### startFenceTimer -/

@[simp] theorem State.startFenceTimer_resetPhase : (s.startFenceTimer).resetPhase = s.resetPhase := rfl
@[simp] theorem State.startFenceTimer_epoch : (s.startFenceTimer).epoch = s.epoch := rfl
@[simp] theorem State.startFenceTimer_journal : (s.startFenceTimer).journal = s.journal := rfl
@[simp] theorem State.startFenceTimer_regions : (s.startFenceTimer).regions = s.regions := rfl
@[simp] theorem State.startFenceTimer_gate :
    (s.startFenceTimer).gate =
      { s.gate with
        timer := if s.policy.fenceDelay = 0 then none else some (s.policy.fenceDelay * 100) } := rfl
@[simp] theorem State.startFenceTimer_policy : (s.startFenceTimer).policy = s.policy := rfl
@[simp] theorem State.startFenceTimer_waq : (s.startFenceTimer).waq = s.waq := rfl
@[simp] theorem State.startFenceTimer_ltt : (s.startFenceTimer).ltt = s.ltt := rfl
@[simp] theorem State.startFenceTimer_captures : (s.startFenceTimer).captures = s.captures := rfl
@[simp] theorem State.startFenceTimer_ops : (s.startFenceTimer).ops = s.ops := rfl
@[simp] theorem State.startFenceTimer_timer : (s.startFenceTimer).timer = s.timer := rfl
@[simp] theorem State.startFenceTimer_engine : (s.startFenceTimer).engine = s.engine := rfl
@[simp] theorem State.startFenceTimer_recovery : (s.startFenceTimer).recovery = s.recovery := rfl
@[simp] theorem State.startFenceTimer_scan : (s.startFenceTimer).scan = s.scan := rfl
@[simp] theorem State.startFenceTimer_inspect : (s.startFenceTimer).inspect = s.inspect := rfl
@[simp] theorem State.startFenceTimer_mport : (s.startFenceTimer).mport = s.mport := rfl
@[simp] theorem State.startFenceTimer_answers : (s.startFenceTimer).answers = s.answers := rfl
@[simp] theorem State.startFenceTimer_i2c : (s.startFenceTimer).i2c = s.i2c := rfl
@[simp] theorem State.startFenceTimer_mailbox : (s.startFenceTimer).mailbox = s.mailbox := rfl
@[simp] theorem State.startFenceTimer_events : (s.startFenceTimer).events = s.events := rfl
@[simp] theorem State.startFenceTimer_faultLevel : (s.startFenceTimer).faultLevel = s.faultLevel := rfl
@[simp] theorem State.startFenceTimer_draws : (s.startFenceTimer).draws = s.draws := rfl
@[simp] theorem State.startFenceTimer_pending : (s.startFenceTimer).pending = s.pending := rfl

/-! ### complete -/

@[simp] theorem State.complete_resetPhase (r : CommandResult) (w : Reason) (d : BitVec 768) :
    (s.complete r w d).resetPhase = s.resetPhase := rfl
@[simp] theorem State.complete_epoch (r : CommandResult) (w : Reason) (d : BitVec 768) :
    (s.complete r w d).epoch = s.epoch := rfl
@[simp] theorem State.complete_journal (r : CommandResult) (w : Reason) (d : BitVec 768) :
    (s.complete r w d).journal = s.journal := rfl
@[simp] theorem State.complete_regions (r : CommandResult) (w : Reason) (d : BitVec 768) :
    (s.complete r w d).regions = s.regions := rfl
@[simp] theorem State.complete_gate (r : CommandResult) (w : Reason) (d : BitVec 768) :
    (s.complete r w d).gate = s.gate := rfl
@[simp] theorem State.complete_policy (r : CommandResult) (w : Reason) (d : BitVec 768) :
    (s.complete r w d).policy = s.policy := rfl
@[simp] theorem State.complete_waq (r : CommandResult) (w : Reason) (d : BitVec 768) :
    (s.complete r w d).waq = s.waq := rfl
@[simp] theorem State.complete_ltt (r : CommandResult) (w : Reason) (d : BitVec 768) :
    (s.complete r w d).ltt = s.ltt := rfl
@[simp] theorem State.complete_captures (r : CommandResult) (w : Reason) (d : BitVec 768) :
    (s.complete r w d).captures = s.captures := rfl
@[simp] theorem State.complete_ops (r : CommandResult) (w : Reason) (d : BitVec 768) :
    (s.complete r w d).ops =
      { s.ops with abortPending := false } := rfl
@[simp] theorem State.complete_timer (r : CommandResult) (w : Reason) (d : BitVec 768) :
    (s.complete r w d).timer = s.timer := rfl
@[simp] theorem State.complete_engine (r : CommandResult) (w : Reason) (d : BitVec 768) :
    (s.complete r w d).engine = s.engine := rfl
@[simp] theorem State.complete_recovery (r : CommandResult) (w : Reason) (d : BitVec 768) :
    (s.complete r w d).recovery = s.recovery := rfl
@[simp] theorem State.complete_scan (r : CommandResult) (w : Reason) (d : BitVec 768) :
    (s.complete r w d).scan = s.scan := rfl
@[simp] theorem State.complete_inspect (r : CommandResult) (w : Reason) (d : BitVec 768) :
    (s.complete r w d).inspect = s.inspect := rfl
@[simp] theorem State.complete_mport (r : CommandResult) (w : Reason) (d : BitVec 768) :
    (s.complete r w d).mport = s.mport := rfl
@[simp] theorem State.complete_answers (r : CommandResult) (w : Reason) (d : BitVec 768) :
    (s.complete r w d).answers = s.answers := rfl
@[simp] theorem State.complete_i2c (r : CommandResult) (w : Reason) (d : BitVec 768) :
    (s.complete r w d).i2c = s.i2c := rfl
@[simp] theorem State.complete_mailbox (r : CommandResult) (w : Reason) (d : BitVec 768) :
    (s.complete r w d).mailbox =
      { s.mailbox with result := resultHeader r w s.mailbox.cmd ||| d, cmd := 0 } := rfl
@[simp] theorem State.complete_events (r : CommandResult) (w : Reason) (d : BitVec 768) :
    (s.complete r w d).events =
      s.events.offer s.epoch.counter (doneReport s.epoch.counter s.mailbox.cmd r w) := rfl
@[simp] theorem State.complete_faultLevel (r : CommandResult) (w : Reason) (d : BitVec 768) :
    (s.complete r w d).faultLevel = s.faultLevel := rfl
@[simp] theorem State.complete_draws (r : CommandResult) (w : Reason) (d : BitVec 768) :
    (s.complete r w d).draws = s.draws := rfl
@[simp] theorem State.complete_pending (r : CommandResult) (w : Reason) (d : BitVec 768) :
    (s.complete r w d).pending = s.pending := rfl

/-! ### startGather -/

@[simp] theorem State.startGather_resetPhase (op : Operation) (src : Source) (j : SealSources) (c : Bool) :
    (s.startGather op src j c).resetPhase = s.resetPhase := rfl
@[simp] theorem State.startGather_epoch (op : Operation) (src : Source) (j : SealSources) (c : Bool) :
    (s.startGather op src j c).epoch = s.epoch := rfl
@[simp] theorem State.startGather_journal (op : Operation) (src : Source) (j : SealSources) (c : Bool) :
    (s.startGather op src j c).journal = s.journal := rfl
@[simp] theorem State.startGather_regions (op : Operation) (src : Source) (j : SealSources) (c : Bool) :
    (s.startGather op src j c).regions = s.regions := rfl
@[simp] theorem State.startGather_gate (op : Operation) (src : Source) (j : SealSources) (c : Bool) :
    (s.startGather op src j c).gate =
      { s.gate with state := if s.gate.state = .pass then .holdTracked else s.gate.state } := rfl
@[simp] theorem State.startGather_policy (op : Operation) (src : Source) (j : SealSources) (c : Bool) :
    (s.startGather op src j c).policy = s.policy := rfl
@[simp] theorem State.startGather_waq (op : Operation) (src : Source) (j : SealSources) (c : Bool) :
    (s.startGather op src j c).waq =
      s.waq.map fun e => { e with beforeHold := true } := rfl
@[simp] theorem State.startGather_ltt (op : Operation) (src : Source) (j : SealSources) (c : Bool) :
    (s.startGather op src j c).ltt = s.ltt := rfl
@[simp] theorem State.startGather_captures (op : Operation) (src : Source) (j : SealSources) (c : Bool) :
    (s.startGather op src j c).captures = s.captures := rfl
@[simp] theorem State.startGather_ops (op : Operation) (src : Source) (j : SealSources) (c : Bool) :
    (s.startGather op src j c).ops =
      { s.ops with
        slot := some ⟨op, src, .gather, j, c, s.gate.state == .pass⟩, owed := s.ops.owed.remove src } := rfl
@[simp] theorem State.startGather_timer (op : Operation) (src : Source) (j : SealSources) (c : Bool) :
    (s.startGather op src j c).timer =
      { s.timer with countdown := s.timer.countdown.pause } := rfl
@[simp] theorem State.startGather_engine (op : Operation) (src : Source) (j : SealSources) (c : Bool) :
    (s.startGather op src j c).engine = s.engine := rfl
@[simp] theorem State.startGather_recovery (op : Operation) (src : Source) (j : SealSources) (c : Bool) :
    (s.startGather op src j c).recovery = s.recovery := rfl
@[simp] theorem State.startGather_scan (op : Operation) (src : Source) (j : SealSources) (c : Bool) :
    (s.startGather op src j c).scan = s.scan := rfl
@[simp] theorem State.startGather_inspect (op : Operation) (src : Source) (j : SealSources) (c : Bool) :
    (s.startGather op src j c).inspect = s.inspect := rfl
@[simp] theorem State.startGather_mport (op : Operation) (src : Source) (j : SealSources) (c : Bool) :
    (s.startGather op src j c).mport = s.mport := rfl
@[simp] theorem State.startGather_answers (op : Operation) (src : Source) (j : SealSources) (c : Bool) :
    (s.startGather op src j c).answers = s.answers := rfl
@[simp] theorem State.startGather_i2c (op : Operation) (src : Source) (j : SealSources) (c : Bool) :
    (s.startGather op src j c).i2c = s.i2c := rfl
@[simp] theorem State.startGather_mailbox (op : Operation) (src : Source) (j : SealSources) (c : Bool) :
    (s.startGather op src j c).mailbox = s.mailbox := rfl
@[simp] theorem State.startGather_events (op : Operation) (src : Source) (j : SealSources) (c : Bool) :
    (s.startGather op src j c).events = s.events := rfl
@[simp] theorem State.startGather_faultLevel (op : Operation) (src : Source) (j : SealSources) (c : Bool) :
    (s.startGather op src j c).faultLevel = s.faultLevel := rfl
@[simp] theorem State.startGather_draws (op : Operation) (src : Source) (j : SealSources) (c : Bool) :
    (s.startGather op src j c).draws = s.draws := rfl
@[simp] theorem State.startGather_pending (op : Operation) (src : Source) (j : SealSources) (c : Bool) :
    (s.startGather op src j c).pending = s.pending := rfl

/-! ### joinSeal -/

@[simp] theorem State.joinSeal_resetPhase (src : Source) : (s.joinSeal src).resetPhase = s.resetPhase := rfl
@[simp] theorem State.joinSeal_epoch (src : Source) : (s.joinSeal src).epoch = s.epoch := rfl
@[simp] theorem State.joinSeal_journal (src : Source) : (s.joinSeal src).journal = s.journal := rfl
@[simp] theorem State.joinSeal_regions (src : Source) : (s.joinSeal src).regions = s.regions := rfl
@[simp] theorem State.joinSeal_gate (src : Source) : (s.joinSeal src).gate = s.gate := rfl
@[simp] theorem State.joinSeal_policy (src : Source) : (s.joinSeal src).policy = s.policy := rfl
@[simp] theorem State.joinSeal_waq (src : Source) : (s.joinSeal src).waq = s.waq := rfl
@[simp] theorem State.joinSeal_ltt (src : Source) : (s.joinSeal src).ltt = s.ltt := rfl
@[simp] theorem State.joinSeal_captures (src : Source) : (s.joinSeal src).captures = s.captures := rfl
@[simp] theorem State.joinSeal_timer (src : Source) : (s.joinSeal src).timer = s.timer := rfl
@[simp] theorem State.joinSeal_engine (src : Source) : (s.joinSeal src).engine = s.engine := rfl
@[simp] theorem State.joinSeal_recovery (src : Source) : (s.joinSeal src).recovery = s.recovery := rfl
@[simp] theorem State.joinSeal_scan (src : Source) : (s.joinSeal src).scan = s.scan := rfl
@[simp] theorem State.joinSeal_inspect (src : Source) : (s.joinSeal src).inspect = s.inspect := rfl
@[simp] theorem State.joinSeal_mport (src : Source) : (s.joinSeal src).mport = s.mport := rfl
@[simp] theorem State.joinSeal_answers (src : Source) : (s.joinSeal src).answers = s.answers := rfl
@[simp] theorem State.joinSeal_i2c (src : Source) : (s.joinSeal src).i2c = s.i2c := rfl
@[simp] theorem State.joinSeal_mailbox (src : Source) : (s.joinSeal src).mailbox = s.mailbox := rfl
@[simp] theorem State.joinSeal_events (src : Source) : (s.joinSeal src).events = s.events := rfl
@[simp] theorem State.joinSeal_faultLevel (src : Source) : (s.joinSeal src).faultLevel = s.faultLevel := rfl
@[simp] theorem State.joinSeal_draws (src : Source) : (s.joinSeal src).draws = s.draws := rfl
@[simp] theorem State.joinSeal_pending (src : Source) : (s.joinSeal src).pending = s.pending := rfl

/-! ### copyRegions -/

@[simp] theorem State.copyRegions_resetPhase : (s.copyRegions).resetPhase = s.resetPhase := rfl
@[simp] theorem State.copyRegions_epoch : (s.copyRegions).epoch = s.epoch := rfl
@[simp] theorem State.copyRegions_journal : (s.copyRegions).journal = s.journal := rfl
@[simp] theorem State.copyRegions_regions :
    (s.copyRegions).regions =
      { s.regions with active := s.regions.shadow, activeUnmapped := s.regions.shadowUnmapped } := rfl
@[simp] theorem State.copyRegions_gate : (s.copyRegions).gate = s.gate := rfl
@[simp] theorem State.copyRegions_policy : (s.copyRegions).policy = s.policy := rfl
@[simp] theorem State.copyRegions_waq : (s.copyRegions).waq = s.waq := rfl
@[simp] theorem State.copyRegions_ltt : (s.copyRegions).ltt = s.ltt := rfl
@[simp] theorem State.copyRegions_captures : (s.copyRegions).captures = s.captures := rfl
@[simp] theorem State.copyRegions_ops : (s.copyRegions).ops = s.ops := rfl
@[simp] theorem State.copyRegions_timer : (s.copyRegions).timer = s.timer := rfl
@[simp] theorem State.copyRegions_engine : (s.copyRegions).engine = s.engine := rfl
@[simp] theorem State.copyRegions_recovery : (s.copyRegions).recovery = s.recovery := rfl
@[simp] theorem State.copyRegions_scan : (s.copyRegions).scan = s.scan := rfl
@[simp] theorem State.copyRegions_inspect : (s.copyRegions).inspect = s.inspect := rfl
@[simp] theorem State.copyRegions_mport : (s.copyRegions).mport = s.mport := rfl
@[simp] theorem State.copyRegions_answers : (s.copyRegions).answers = s.answers := rfl
@[simp] theorem State.copyRegions_i2c : (s.copyRegions).i2c = s.i2c := rfl
@[simp] theorem State.copyRegions_mailbox : (s.copyRegions).mailbox = s.mailbox := rfl
@[simp] theorem State.copyRegions_events : (s.copyRegions).events = s.events := rfl
@[simp] theorem State.copyRegions_faultLevel : (s.copyRegions).faultLevel = s.faultLevel := rfl
@[simp] theorem State.copyRegions_draws : (s.copyRegions).draws = s.draws := rfl
@[simp] theorem State.copyRegions_pending : (s.copyRegions).pending = s.pending := rfl

/-! ### loadTimer -/

@[simp] theorem State.loadTimer_resetPhase : (s.loadTimer).resetPhase = s.resetPhase := rfl
@[simp] theorem State.loadTimer_epoch : (s.loadTimer).epoch = s.epoch := rfl
@[simp] theorem State.loadTimer_journal : (s.loadTimer).journal = s.journal := rfl
@[simp] theorem State.loadTimer_regions : (s.loadTimer).regions = s.regions := rfl
@[simp] theorem State.loadTimer_gate : (s.loadTimer).gate = s.gate := rfl
@[simp] theorem State.loadTimer_policy : (s.loadTimer).policy = s.policy := rfl
@[simp] theorem State.loadTimer_waq : (s.loadTimer).waq = s.waq := rfl
@[simp] theorem State.loadTimer_ltt : (s.loadTimer).ltt = s.ltt := rfl
@[simp] theorem State.loadTimer_captures : (s.loadTimer).captures = s.captures := rfl
@[simp] theorem State.loadTimer_ops : (s.loadTimer).ops = s.ops := rfl
@[simp] theorem State.loadTimer_timer :
    (s.loadTimer).timer =
      { s.timer with
        activeInterval := s.timer.nextInterval, countdown := Countdown.load s.timer.nextInterval } := rfl
@[simp] theorem State.loadTimer_engine : (s.loadTimer).engine = s.engine := rfl
@[simp] theorem State.loadTimer_recovery : (s.loadTimer).recovery = s.recovery := rfl
@[simp] theorem State.loadTimer_scan : (s.loadTimer).scan = s.scan := rfl
@[simp] theorem State.loadTimer_inspect : (s.loadTimer).inspect = s.inspect := rfl
@[simp] theorem State.loadTimer_mport : (s.loadTimer).mport = s.mport := rfl
@[simp] theorem State.loadTimer_answers : (s.loadTimer).answers = s.answers := rfl
@[simp] theorem State.loadTimer_i2c : (s.loadTimer).i2c = s.i2c := rfl
@[simp] theorem State.loadTimer_mailbox : (s.loadTimer).mailbox = s.mailbox := rfl
@[simp] theorem State.loadTimer_events : (s.loadTimer).events = s.events := rfl
@[simp] theorem State.loadTimer_faultLevel : (s.loadTimer).faultLevel = s.faultLevel := rfl
@[simp] theorem State.loadTimer_draws : (s.loadTimer).draws = s.draws := rfl
@[simp] theorem State.loadTimer_pending : (s.loadTimer).pending = s.pending := rfl

/-! ### select -/

@[simp] theorem State.select_resetPhase (i : Byte) (n : Nat) :
    (s.select i n).resetPhase = s.resetPhase := rfl
@[simp] theorem State.select_epoch (i : Byte) (n : Nat) : (s.select i n).epoch = s.epoch := rfl
@[simp] theorem State.select_journal (i : Byte) (n : Nat) : (s.select i n).journal = s.journal := rfl
@[simp] theorem State.select_regions (i : Byte) (n : Nat) : (s.select i n).regions = s.regions := rfl
@[simp] theorem State.select_gate (i : Byte) (n : Nat) : (s.select i n).gate = s.gate := rfl
@[simp] theorem State.select_policy (i : Byte) (n : Nat) : (s.select i n).policy = s.policy := rfl
@[simp] theorem State.select_waq (i : Byte) (n : Nat) : (s.select i n).waq = s.waq := rfl
@[simp] theorem State.select_ltt (i : Byte) (n : Nat) : (s.select i n).ltt = s.ltt := rfl
@[simp] theorem State.select_captures (i : Byte) (n : Nat) : (s.select i n).captures = s.captures := rfl
@[simp] theorem State.select_ops (i : Byte) (n : Nat) : (s.select i n).ops = s.ops := rfl
@[simp] theorem State.select_timer (i : Byte) (n : Nat) : (s.select i n).timer = s.timer := rfl
@[simp] theorem State.select_engine (i : Byte) (n : Nat) : (s.select i n).engine = s.engine := rfl
@[simp] theorem State.select_recovery (i : Byte) (n : Nat) : (s.select i n).recovery = s.recovery := rfl
@[simp] theorem State.select_scan (i : Byte) (n : Nat) : (s.select i n).scan = s.scan := rfl
@[simp] theorem State.select_inspect (i : Byte) (n : Nat) : (s.select i n).inspect = s.inspect := rfl
@[simp] theorem State.select_mport (i : Byte) (n : Nat) : (s.select i n).mport = s.mport := rfl
@[simp] theorem State.select_answers (i : Byte) (n : Nat) : (s.select i n).answers = s.answers := rfl
@[simp] theorem State.select_i2c (i : Byte) (n : Nat) :
    (s.select i n).i2c =
      { s.i2c with index := i, pointer := n } := rfl
@[simp] theorem State.select_mailbox (i : Byte) (n : Nat) : (s.select i n).mailbox = s.mailbox := rfl
@[simp] theorem State.select_events (i : Byte) (n : Nat) : (s.select i n).events = s.events := rfl
@[simp] theorem State.select_faultLevel (i : Byte) (n : Nat) :
    (s.select i n).faultLevel = s.faultLevel := rfl
@[simp] theorem State.select_draws (i : Byte) (n : Nat) : (s.select i n).draws = s.draws := rfl
@[simp] theorem State.select_pending (i : Byte) (n : Nat) : (s.select i n).pending = s.pending := rfl

/-! ### pointAt -/

@[simp] theorem State.pointAt_resetPhase (n : Nat) : (s.pointAt n).resetPhase = s.resetPhase := rfl
@[simp] theorem State.pointAt_epoch (n : Nat) : (s.pointAt n).epoch = s.epoch := rfl
@[simp] theorem State.pointAt_journal (n : Nat) : (s.pointAt n).journal = s.journal := rfl
@[simp] theorem State.pointAt_regions (n : Nat) : (s.pointAt n).regions = s.regions := rfl
@[simp] theorem State.pointAt_gate (n : Nat) : (s.pointAt n).gate = s.gate := rfl
@[simp] theorem State.pointAt_policy (n : Nat) : (s.pointAt n).policy = s.policy := rfl
@[simp] theorem State.pointAt_waq (n : Nat) : (s.pointAt n).waq = s.waq := rfl
@[simp] theorem State.pointAt_ltt (n : Nat) : (s.pointAt n).ltt = s.ltt := rfl
@[simp] theorem State.pointAt_captures (n : Nat) : (s.pointAt n).captures = s.captures := rfl
@[simp] theorem State.pointAt_ops (n : Nat) : (s.pointAt n).ops = s.ops := rfl
@[simp] theorem State.pointAt_timer (n : Nat) : (s.pointAt n).timer = s.timer := rfl
@[simp] theorem State.pointAt_engine (n : Nat) : (s.pointAt n).engine = s.engine := rfl
@[simp] theorem State.pointAt_recovery (n : Nat) : (s.pointAt n).recovery = s.recovery := rfl
@[simp] theorem State.pointAt_scan (n : Nat) : (s.pointAt n).scan = s.scan := rfl
@[simp] theorem State.pointAt_inspect (n : Nat) : (s.pointAt n).inspect = s.inspect := rfl
@[simp] theorem State.pointAt_mport (n : Nat) : (s.pointAt n).mport = s.mport := rfl
@[simp] theorem State.pointAt_answers (n : Nat) : (s.pointAt n).answers = s.answers := rfl
@[simp] theorem State.pointAt_i2c (n : Nat) :
    (s.pointAt n).i2c =
      { s.i2c with pointer := n } := rfl
@[simp] theorem State.pointAt_mailbox (n : Nat) : (s.pointAt n).mailbox = s.mailbox := rfl
@[simp] theorem State.pointAt_events (n : Nat) : (s.pointAt n).events = s.events := rfl
@[simp] theorem State.pointAt_faultLevel (n : Nat) : (s.pointAt n).faultLevel = s.faultLevel := rfl
@[simp] theorem State.pointAt_draws (n : Nat) : (s.pointAt n).draws = s.draws := rfl
@[simp] theorem State.pointAt_pending (n : Nat) : (s.pointAt n).pending = s.pending := rfl

/-! ### freeRequest -/

@[simp] theorem State.freeRequest_resetPhase (i : BitVec 8) :
    (s.freeRequest i).resetPhase = s.resetPhase := rfl
@[simp] theorem State.freeRequest_epoch (i : BitVec 8) : (s.freeRequest i).epoch = s.epoch := rfl
@[simp] theorem State.freeRequest_journal (i : BitVec 8) : (s.freeRequest i).journal = s.journal := rfl
@[simp] theorem State.freeRequest_regions (i : BitVec 8) : (s.freeRequest i).regions = s.regions := rfl
@[simp] theorem State.freeRequest_gate (i : BitVec 8) : (s.freeRequest i).gate = s.gate := rfl
@[simp] theorem State.freeRequest_policy (i : BitVec 8) : (s.freeRequest i).policy = s.policy := rfl
@[simp] theorem State.freeRequest_waq (i : BitVec 8) : (s.freeRequest i).waq = s.waq := rfl
@[simp] theorem State.freeRequest_ltt (i : BitVec 8) : (s.freeRequest i).ltt = s.ltt := rfl
@[simp] theorem State.freeRequest_captures (i : BitVec 8) : (s.freeRequest i).captures = s.captures := rfl
@[simp] theorem State.freeRequest_ops (i : BitVec 8) : (s.freeRequest i).ops = s.ops := rfl
@[simp] theorem State.freeRequest_timer (i : BitVec 8) : (s.freeRequest i).timer = s.timer := rfl
@[simp] theorem State.freeRequest_engine (i : BitVec 8) : (s.freeRequest i).engine = s.engine := rfl
@[simp] theorem State.freeRequest_recovery (i : BitVec 8) : (s.freeRequest i).recovery = s.recovery := rfl
@[simp] theorem State.freeRequest_scan (i : BitVec 8) : (s.freeRequest i).scan = s.scan := rfl
@[simp] theorem State.freeRequest_inspect (i : BitVec 8) : (s.freeRequest i).inspect = s.inspect := rfl
@[simp] theorem State.freeRequest_mport (i : BitVec 8) :
    (s.freeRequest i).mport =
      { s.mport with outstanding := s.mport.outstanding.filter fun o => o.ident != i } := rfl
@[simp] theorem State.freeRequest_answers (i : BitVec 8) : (s.freeRequest i).answers = s.answers := rfl
@[simp] theorem State.freeRequest_i2c (i : BitVec 8) : (s.freeRequest i).i2c = s.i2c := rfl
@[simp] theorem State.freeRequest_mailbox (i : BitVec 8) : (s.freeRequest i).mailbox = s.mailbox := rfl
@[simp] theorem State.freeRequest_events (i : BitVec 8) : (s.freeRequest i).events = s.events := rfl
@[simp] theorem State.freeRequest_faultLevel (i : BitVec 8) :
    (s.freeRequest i).faultLevel = s.faultLevel := rfl
@[simp] theorem State.freeRequest_draws (i : BitVec 8) : (s.freeRequest i).draws = s.draws := rfl
@[simp] theorem State.freeRequest_pending (i : BitVec 8) : (s.freeRequest i).pending = s.pending := rfl

/-! ### freeIdent -/

@[simp] theorem State.freeIdent_resetPhase (i : BitVec 8) : (s.freeIdent i).resetPhase = s.resetPhase := rfl
@[simp] theorem State.freeIdent_epoch (i : BitVec 8) : (s.freeIdent i).epoch = s.epoch := rfl
@[simp] theorem State.freeIdent_journal (i : BitVec 8) : (s.freeIdent i).journal = s.journal := rfl
@[simp] theorem State.freeIdent_regions (i : BitVec 8) : (s.freeIdent i).regions = s.regions := rfl
@[simp] theorem State.freeIdent_gate (i : BitVec 8) : (s.freeIdent i).gate = s.gate := rfl
@[simp] theorem State.freeIdent_policy (i : BitVec 8) : (s.freeIdent i).policy = s.policy := rfl
@[simp] theorem State.freeIdent_waq (i : BitVec 8) : (s.freeIdent i).waq = s.waq := rfl
@[simp] theorem State.freeIdent_ltt (i : BitVec 8) : (s.freeIdent i).ltt = s.ltt := rfl
@[simp] theorem State.freeIdent_captures (i : BitVec 8) : (s.freeIdent i).captures = s.captures := rfl
@[simp] theorem State.freeIdent_ops (i : BitVec 8) : (s.freeIdent i).ops = s.ops := rfl
@[simp] theorem State.freeIdent_timer (i : BitVec 8) : (s.freeIdent i).timer = s.timer := rfl
@[simp] theorem State.freeIdent_engine (i : BitVec 8) : (s.freeIdent i).engine = s.engine := rfl
@[simp] theorem State.freeIdent_recovery (i : BitVec 8) : (s.freeIdent i).recovery = s.recovery := rfl
@[simp] theorem State.freeIdent_scan (i : BitVec 8) : (s.freeIdent i).scan = s.scan := rfl
@[simp] theorem State.freeIdent_inspect (i : BitVec 8) : (s.freeIdent i).inspect = s.inspect := rfl
@[simp] theorem State.freeIdent_mport (i : BitVec 8) :
    (s.freeIdent i).mport =
      { s.mport with withheld := s.mport.withheld.filter fun w => w.ident != i } := rfl
@[simp] theorem State.freeIdent_answers (i : BitVec 8) : (s.freeIdent i).answers = s.answers := rfl
@[simp] theorem State.freeIdent_i2c (i : BitVec 8) : (s.freeIdent i).i2c = s.i2c := rfl
@[simp] theorem State.freeIdent_mailbox (i : BitVec 8) : (s.freeIdent i).mailbox = s.mailbox := rfl
@[simp] theorem State.freeIdent_events (i : BitVec 8) : (s.freeIdent i).events = s.events := rfl
@[simp] theorem State.freeIdent_faultLevel (i : BitVec 8) : (s.freeIdent i).faultLevel = s.faultLevel := rfl
@[simp] theorem State.freeIdent_draws (i : BitVec 8) : (s.freeIdent i).draws = s.draws := rfl
@[simp] theorem State.freeIdent_pending (i : BitVec 8) : (s.freeIdent i).pending = s.pending := rfl

/-! ### withhold -/

@[simp] theorem State.withhold_resetPhase (i : BitVec 8) : (s.withhold i).resetPhase = s.resetPhase := rfl
@[simp] theorem State.withhold_epoch (i : BitVec 8) : (s.withhold i).epoch = s.epoch := rfl
@[simp] theorem State.withhold_journal (i : BitVec 8) : (s.withhold i).journal = s.journal := rfl
@[simp] theorem State.withhold_regions (i : BitVec 8) : (s.withhold i).regions = s.regions := rfl
@[simp] theorem State.withhold_gate (i : BitVec 8) : (s.withhold i).gate = s.gate := rfl
@[simp] theorem State.withhold_policy (i : BitVec 8) : (s.withhold i).policy = s.policy := rfl
@[simp] theorem State.withhold_waq (i : BitVec 8) : (s.withhold i).waq = s.waq := rfl
@[simp] theorem State.withhold_ltt (i : BitVec 8) : (s.withhold i).ltt = s.ltt := rfl
@[simp] theorem State.withhold_captures (i : BitVec 8) : (s.withhold i).captures = s.captures := rfl
@[simp] theorem State.withhold_ops (i : BitVec 8) : (s.withhold i).ops = s.ops := rfl
@[simp] theorem State.withhold_timer (i : BitVec 8) : (s.withhold i).timer = s.timer := rfl
@[simp] theorem State.withhold_engine (i : BitVec 8) : (s.withhold i).engine = s.engine := rfl
@[simp] theorem State.withhold_recovery (i : BitVec 8) : (s.withhold i).recovery = s.recovery := rfl
@[simp] theorem State.withhold_scan (i : BitVec 8) : (s.withhold i).scan = s.scan := rfl
@[simp] theorem State.withhold_inspect (i : BitVec 8) : (s.withhold i).inspect = s.inspect := rfl
@[simp] theorem State.withhold_mport (i : BitVec 8) :
    (s.withhold i).mport =
      { s.mport with withheld := s.mport.withheld ++ [⟨i, 400⟩] } := rfl
@[simp] theorem State.withhold_answers (i : BitVec 8) : (s.withhold i).answers = s.answers := rfl
@[simp] theorem State.withhold_i2c (i : BitVec 8) : (s.withhold i).i2c = s.i2c := rfl
@[simp] theorem State.withhold_mailbox (i : BitVec 8) : (s.withhold i).mailbox = s.mailbox := rfl
@[simp] theorem State.withhold_events (i : BitVec 8) : (s.withhold i).events = s.events := rfl
@[simp] theorem State.withhold_faultLevel (i : BitVec 8) : (s.withhold i).faultLevel = s.faultLevel := rfl
@[simp] theorem State.withhold_draws (i : BitVec 8) : (s.withhold i).draws = s.draws := rfl
@[simp] theorem State.withhold_pending (i : BitVec 8) : (s.withhold i).pending = s.pending := rfl

/-! ### send -/

@[simp] theorem State.send_resetPhase (i : BitVec 8) (r : Request) :
    (s.send i r).resetPhase = s.resetPhase := rfl
@[simp] theorem State.send_epoch (i : BitVec 8) (r : Request) : (s.send i r).epoch = s.epoch := rfl
@[simp] theorem State.send_journal (i : BitVec 8) (r : Request) : (s.send i r).journal = s.journal := rfl
@[simp] theorem State.send_regions (i : BitVec 8) (r : Request) : (s.send i r).regions = s.regions := rfl
@[simp] theorem State.send_gate (i : BitVec 8) (r : Request) : (s.send i r).gate = s.gate := rfl
@[simp] theorem State.send_policy (i : BitVec 8) (r : Request) : (s.send i r).policy = s.policy := rfl
@[simp] theorem State.send_waq (i : BitVec 8) (r : Request) : (s.send i r).waq = s.waq := rfl
@[simp] theorem State.send_ltt (i : BitVec 8) (r : Request) : (s.send i r).ltt = s.ltt := rfl
@[simp] theorem State.send_captures (i : BitVec 8) (r : Request) : (s.send i r).captures = s.captures := rfl
@[simp] theorem State.send_ops (i : BitVec 8) (r : Request) : (s.send i r).ops = s.ops := rfl
@[simp] theorem State.send_timer (i : BitVec 8) (r : Request) : (s.send i r).timer = s.timer := rfl
@[simp] theorem State.send_engine (i : BitVec 8) (r : Request) : (s.send i r).engine = s.engine := rfl
@[simp] theorem State.send_recovery (i : BitVec 8) (r : Request) : (s.send i r).recovery = s.recovery := rfl
@[simp] theorem State.send_scan (i : BitVec 8) (r : Request) : (s.send i r).scan = s.scan := rfl
@[simp] theorem State.send_inspect (i : BitVec 8) (r : Request) : (s.send i r).inspect = s.inspect := rfl
@[simp] theorem State.send_mport (i : BitVec 8) (r : Request) :
    (s.send i r).mport =
      { s.mport with
        waiting := s.mport.waiting.erase r
        outstanding := s.mport.outstanding ++ [⟨i, r, 100⟩] } := rfl
@[simp] theorem State.send_answers (i : BitVec 8) (r : Request) : (s.send i r).answers = s.answers := rfl
@[simp] theorem State.send_i2c (i : BitVec 8) (r : Request) : (s.send i r).i2c = s.i2c := rfl
@[simp] theorem State.send_mailbox (i : BitVec 8) (r : Request) : (s.send i r).mailbox = s.mailbox := rfl
@[simp] theorem State.send_events (i : BitVec 8) (r : Request) : (s.send i r).events = s.events := rfl
@[simp] theorem State.send_faultLevel (i : BitVec 8) (r : Request) :
    (s.send i r).faultLevel = s.faultLevel := rfl
@[simp] theorem State.send_draws (i : BitVec 8) (r : Request) : (s.send i r).draws = s.draws := rfl
@[simp] theorem State.send_pending (i : BitVec 8) (r : Request) : (s.send i r).pending = s.pending := rfl

/-! ### enterDrain -/

@[simp] theorem State.enterDrain_resetPhase (src : Source) (tr : Trigger) (c : Checkpoint) (b m : Bool) :
    (s.enterDrain src tr c b m).resetPhase = s.resetPhase := rfl
@[simp] theorem State.enterDrain_epoch (src : Source) (tr : Trigger) (c : Checkpoint) (b m : Bool) :
    (s.enterDrain src tr c b m).epoch = s.epoch := rfl
@[simp] theorem State.enterDrain_journal (src : Source) (tr : Trigger) (c : Checkpoint) (b m : Bool) :
    (s.enterDrain src tr c b m).journal = s.journal := rfl
@[simp] theorem State.enterDrain_regions (src : Source) (tr : Trigger) (c : Checkpoint) (b m : Bool) :
    (s.enterDrain src tr c b m).regions = s.regions := rfl
@[simp] theorem State.enterDrain_gate (src : Source) (tr : Trigger) (c : Checkpoint) (b m : Bool) :
    (s.enterDrain src tr c b m).gate = s.gate := rfl
@[simp] theorem State.enterDrain_policy (src : Source) (tr : Trigger) (c : Checkpoint) (b m : Bool) :
    (s.enterDrain src tr c b m).policy = s.policy := rfl
@[simp] theorem State.enterDrain_waq (src : Source) (tr : Trigger) (c : Checkpoint) (b m : Bool) :
    (s.enterDrain src tr c b m).waq = s.waq := rfl
@[simp] theorem State.enterDrain_ltt (src : Source) (tr : Trigger) (c : Checkpoint) (b m : Bool) :
    (s.enterDrain src tr c b m).ltt = s.ltt := rfl
@[simp] theorem State.enterDrain_captures (src : Source) (tr : Trigger) (c : Checkpoint) (b m : Bool) :
    (s.enterDrain src tr c b m).captures = s.captures := rfl
@[simp] theorem State.enterDrain_ops (src : Source) (tr : Trigger) (c : Checkpoint) (b m : Bool) :
    (s.enterDrain src tr c b m).ops =
      { s.ops with slot := some ⟨.rollback, src, .drain, .empty, b, m⟩ } := rfl
@[simp] theorem State.enterDrain_timer (src : Source) (tr : Trigger) (c : Checkpoint) (b m : Bool) :
    (s.enterDrain src tr c b m).timer =
      { s.timer with countdown := s.timer.countdown.pause } := rfl
@[simp] theorem State.enterDrain_engine (src : Source) (tr : Trigger) (c : Checkpoint) (b m : Bool) :
    (s.enterDrain src tr c b m).engine =
      some ⟨c.epoch, c.start, none, ⟨.idle, .idle⟩, 0⟩ := rfl
@[simp] theorem State.enterDrain_recovery (src : Source) (tr : Trigger) (c : Checkpoint) (b m : Bool) :
    (s.enterDrain src tr c b m).recovery =
      .started tr c.epoch := rfl
@[simp] theorem State.enterDrain_scan (src : Source) (tr : Trigger) (c : Checkpoint) (b m : Bool) :
    (s.enterDrain src tr c b m).scan = s.scan := rfl
@[simp] theorem State.enterDrain_inspect (src : Source) (tr : Trigger) (c : Checkpoint) (b m : Bool) :
    (s.enterDrain src tr c b m).inspect = s.inspect := rfl
@[simp] theorem State.enterDrain_mport (src : Source) (tr : Trigger) (c : Checkpoint) (b m : Bool) :
    (s.enterDrain src tr c b m).mport = s.mport := rfl
@[simp] theorem State.enterDrain_answers (src : Source) (tr : Trigger) (c : Checkpoint) (b m : Bool) :
    (s.enterDrain src tr c b m).answers = s.answers := rfl
@[simp] theorem State.enterDrain_i2c (src : Source) (tr : Trigger) (c : Checkpoint) (b m : Bool) :
    (s.enterDrain src tr c b m).i2c = s.i2c := rfl
@[simp] theorem State.enterDrain_mailbox (src : Source) (tr : Trigger) (c : Checkpoint) (b m : Bool) :
    (s.enterDrain src tr c b m).mailbox = s.mailbox := rfl
@[simp] theorem State.enterDrain_events (src : Source) (tr : Trigger) (c : Checkpoint) (b m : Bool) :
    (s.enterDrain src tr c b m).events = s.events := rfl
@[simp] theorem State.enterDrain_faultLevel (src : Source) (tr : Trigger) (c : Checkpoint) (b m : Bool) :
    (s.enterDrain src tr c b m).faultLevel = s.faultLevel := rfl
@[simp] theorem State.enterDrain_draws (src : Source) (tr : Trigger) (c : Checkpoint) (b m : Bool) :
    (s.enterDrain src tr c b m).draws = s.draws := rfl
@[simp] theorem State.enterDrain_pending (src : Source) (tr : Trigger) (c : Checkpoint) (b m : Bool) :
    (s.enterDrain src tr c b m).pending = s.pending := rfl

/-! ### joinRecordReads -/

@[simp] theorem State.joinRecordReads_resetPhase (i h : Owner) (p : Nat) :
    (s.joinRecordReads i h p).resetPhase = s.resetPhase := rfl
@[simp] theorem State.joinRecordReads_epoch (i h : Owner) (p : Nat) :
    (s.joinRecordReads i h p).epoch = s.epoch := rfl
@[simp] theorem State.joinRecordReads_journal (i h : Owner) (p : Nat) :
    (s.joinRecordReads i h p).journal = s.journal := rfl
@[simp] theorem State.joinRecordReads_regions (i h : Owner) (p : Nat) :
    (s.joinRecordReads i h p).regions = s.regions := rfl
@[simp] theorem State.joinRecordReads_gate (i h : Owner) (p : Nat) :
    (s.joinRecordReads i h p).gate = s.gate := rfl
@[simp] theorem State.joinRecordReads_policy (i h : Owner) (p : Nat) :
    (s.joinRecordReads i h p).policy = s.policy := rfl
@[simp] theorem State.joinRecordReads_waq (i h : Owner) (p : Nat) :
    (s.joinRecordReads i h p).waq = s.waq := rfl
@[simp] theorem State.joinRecordReads_ltt (i h : Owner) (p : Nat) :
    (s.joinRecordReads i h p).ltt = s.ltt := rfl
@[simp] theorem State.joinRecordReads_captures (i h : Owner) (p : Nat) :
    (s.joinRecordReads i h p).captures = s.captures := rfl
@[simp] theorem State.joinRecordReads_ops (i h : Owner) (p : Nat) :
    (s.joinRecordReads i h p).ops = s.ops := rfl
@[simp] theorem State.joinRecordReads_timer (i h : Owner) (p : Nat) :
    (s.joinRecordReads i h p).timer = s.timer := rfl
@[simp] theorem State.joinRecordReads_engine (i h : Owner) (p : Nat) :
    (s.joinRecordReads i h p).engine = s.engine := rfl
@[simp] theorem State.joinRecordReads_recovery (i h : Owner) (p : Nat) :
    (s.joinRecordReads i h p).recovery = s.recovery := rfl
@[simp] theorem State.joinRecordReads_scan (i h : Owner) (p : Nat) :
    (s.joinRecordReads i h p).scan = s.scan := rfl
@[simp] theorem State.joinRecordReads_inspect (i h : Owner) (p : Nat) :
    (s.joinRecordReads i h p).inspect = s.inspect := rfl
@[simp] theorem State.joinRecordReads_mport (i h : Owner) (p : Nat) :
    (s.joinRecordReads i h p).mport =
      { s.mport with
        waiting := s.mport.waiting ++
          [⟨i, .read, s.journal.imageAddr p, 64, 0, 0, s.mport.ageClock⟩] ++
          [⟨h, .read, s.journal.headerAddr p, 64, 0, 0, s.mport.ageClock⟩] } := rfl
@[simp] theorem State.joinRecordReads_answers (i h : Owner) (p : Nat) :
    (s.joinRecordReads i h p).answers = s.answers := rfl
@[simp] theorem State.joinRecordReads_i2c (i h : Owner) (p : Nat) :
    (s.joinRecordReads i h p).i2c = s.i2c := rfl
@[simp] theorem State.joinRecordReads_mailbox (i h : Owner) (p : Nat) :
    (s.joinRecordReads i h p).mailbox = s.mailbox := rfl
@[simp] theorem State.joinRecordReads_events (i h : Owner) (p : Nat) :
    (s.joinRecordReads i h p).events = s.events := rfl
@[simp] theorem State.joinRecordReads_faultLevel (i h : Owner) (p : Nat) :
    (s.joinRecordReads i h p).faultLevel = s.faultLevel := rfl
@[simp] theorem State.joinRecordReads_draws (i h : Owner) (p : Nat) :
    (s.joinRecordReads i h p).draws = s.draws := rfl
@[simp] theorem State.joinRecordReads_pending (i h : Owner) (p : Nat) :
    (s.joinRecordReads i h p).pending = s.pending := rfl

/-! ### countFault -/

@[simp] theorem State.countFault_resetPhase : (s.countFault).resetPhase = s.resetPhase := rfl
@[simp] theorem State.countFault_epoch : (s.countFault).epoch = s.epoch := rfl
@[simp] theorem State.countFault_journal : (s.countFault).journal = s.journal := rfl
@[simp] theorem State.countFault_regions : (s.countFault).regions = s.regions := rfl
@[simp] theorem State.countFault_gate : (s.countFault).gate = s.gate := rfl
@[simp] theorem State.countFault_policy : (s.countFault).policy = s.policy := rfl
@[simp] theorem State.countFault_waq : (s.countFault).waq = s.waq := rfl
@[simp] theorem State.countFault_ltt : (s.countFault).ltt = s.ltt := rfl
@[simp] theorem State.countFault_captures : (s.countFault).captures = s.captures := rfl
@[simp] theorem State.countFault_ops : (s.countFault).ops = s.ops := rfl
@[simp] theorem State.countFault_timer : (s.countFault).timer = s.timer := rfl
@[simp] theorem State.countFault_engine : (s.countFault).engine = s.engine := rfl
@[simp] theorem State.countFault_recovery :
    (s.countFault).recovery =
      { s.recovery with faults := min (s.recovery.faults + 1) 255 } := rfl
@[simp] theorem State.countFault_scan : (s.countFault).scan = s.scan := rfl
@[simp] theorem State.countFault_inspect : (s.countFault).inspect = s.inspect := rfl
@[simp] theorem State.countFault_mport : (s.countFault).mport = s.mport := rfl
@[simp] theorem State.countFault_answers : (s.countFault).answers = s.answers := rfl
@[simp] theorem State.countFault_i2c : (s.countFault).i2c = s.i2c := rfl
@[simp] theorem State.countFault_mailbox : (s.countFault).mailbox = s.mailbox := rfl
@[simp] theorem State.countFault_events : (s.countFault).events = s.events := rfl
@[simp] theorem State.countFault_faultLevel : (s.countFault).faultLevel = s.faultLevel := rfl
@[simp] theorem State.countFault_draws : (s.countFault).draws = s.draws := rfl
@[simp] theorem State.countFault_pending : (s.countFault).pending = s.pending := rfl

/-! ### endReset -/

@[simp] theorem State.endReset_resetPhase (p : ResetPhase) (a b f : Bool) :
    (s.endReset p a b f).resetPhase =
      p := rfl
@[simp] theorem State.endReset_epoch (p : ResetPhase) (a b f : Bool) :
    (s.endReset p a b f).epoch = s.epoch := rfl
@[simp] theorem State.endReset_journal (p : ResetPhase) (a b f : Bool) :
    (s.endReset p a b f).journal = s.journal := rfl
@[simp] theorem State.endReset_regions (p : ResetPhase) (a b f : Bool) :
    (s.endReset p a b f).regions = s.regions := rfl
@[simp] theorem State.endReset_gate (p : ResetPhase) (a b f : Bool) :
    (s.endReset p a b f).gate = s.gate := rfl
@[simp] theorem State.endReset_policy (p : ResetPhase) (a b f : Bool) :
    (s.endReset p a b f).policy = s.policy := rfl
@[simp] theorem State.endReset_waq (p : ResetPhase) (a b f : Bool) : (s.endReset p a b f).waq = s.waq := rfl
@[simp] theorem State.endReset_ltt (p : ResetPhase) (a b f : Bool) : (s.endReset p a b f).ltt = s.ltt := rfl
@[simp] theorem State.endReset_captures (p : ResetPhase) (a b f : Bool) :
    (s.endReset p a b f).captures = s.captures := rfl
@[simp] theorem State.endReset_ops (p : ResetPhase) (a b f : Bool) : (s.endReset p a b f).ops = s.ops := rfl
@[simp] theorem State.endReset_timer (p : ResetPhase) (a b f : Bool) :
    (s.endReset p a b f).timer = s.timer := rfl
@[simp] theorem State.endReset_engine (p : ResetPhase) (a b f : Bool) :
    (s.endReset p a b f).engine = s.engine := rfl
@[simp] theorem State.endReset_recovery (p : ResetPhase) (a b f : Bool) :
    (s.endReset p a b f).recovery = s.recovery := rfl
@[simp] theorem State.endReset_scan (p : ResetPhase) (a b f : Bool) :
    (s.endReset p a b f).scan = s.scan := rfl
@[simp] theorem State.endReset_inspect (p : ResetPhase) (a b f : Bool) :
    (s.endReset p a b f).inspect = s.inspect := rfl
@[simp] theorem State.endReset_mport (p : ResetPhase) (a b f : Bool) :
    (s.endReset p a b f).mport = s.mport := rfl
@[simp] theorem State.endReset_answers (p : ResetPhase) (a b f : Bool) :
    (s.endReset p a b f).answers = s.answers := rfl
@[simp] theorem State.endReset_i2c (p : ResetPhase) (a b f : Bool) :
    (s.endReset p a b f).i2c =
      { s.i2c with addr1 := a, addr0 := b } := rfl
@[simp] theorem State.endReset_mailbox (p : ResetPhase) (a b f : Bool) :
    (s.endReset p a b f).mailbox = s.mailbox := rfl
@[simp] theorem State.endReset_events (p : ResetPhase) (a b f : Bool) :
    (s.endReset p a b f).events = s.events := rfl
@[simp] theorem State.endReset_faultLevel (p : ResetPhase) (a b f : Bool) :
    (s.endReset p a b f).faultLevel =
      f := rfl
@[simp] theorem State.endReset_draws (p : ResetPhase) (a b f : Bool) :
    (s.endReset p a b f).draws = s.draws := rfl
@[simp] theorem State.endReset_pending (p : ResetPhase) (a b f : Bool) :
    (s.endReset p a b f).pending = s.pending := rfl

/-! ### countTick -/

@[simp] theorem State.countTick_resetPhase : (s.countTick).resetPhase = s.resetPhase := rfl
@[simp] theorem State.countTick_epoch : (s.countTick).epoch = s.epoch := rfl
@[simp] theorem State.countTick_journal : (s.countTick).journal = s.journal := rfl
@[simp] theorem State.countTick_regions : (s.countTick).regions = s.regions := rfl
@[simp] theorem State.countTick_gate :
    (s.countTick).gate =
      { s.gate with timer := s.gate.timer.map fun n => n - 1 } := rfl
@[simp] theorem State.countTick_policy : (s.countTick).policy = s.policy := rfl
@[simp] theorem State.countTick_waq : (s.countTick).waq = s.waq := rfl
@[simp] theorem State.countTick_ltt : (s.countTick).ltt = s.ltt := rfl
@[simp] theorem State.countTick_captures : (s.countTick).captures = s.captures := rfl
@[simp] theorem State.countTick_ops : (s.countTick).ops = s.ops := rfl
@[simp] theorem State.countTick_timer :
    (s.countTick).timer =
      { s.timer with countdown := s.timer.countdown.tick } := rfl
@[simp] theorem State.countTick_engine : (s.countTick).engine = s.engine := rfl
@[simp] theorem State.countTick_recovery : (s.countTick).recovery = s.recovery := rfl
@[simp] theorem State.countTick_scan : (s.countTick).scan = s.scan := rfl
@[simp] theorem State.countTick_inspect : (s.countTick).inspect = s.inspect := rfl
@[simp] theorem State.countTick_mport :
    (s.countTick).mport =
      { s.mport with
        outstanding := s.mport.outstanding.map fun o => { o with timer := o.timer - 1 }
        withheld := s.mport.withheld.map fun w => { w with timer := w.timer - 1 } } := rfl
@[simp] theorem State.countTick_answers : (s.countTick).answers = s.answers := rfl
@[simp] theorem State.countTick_i2c : (s.countTick).i2c = s.i2c := rfl
@[simp] theorem State.countTick_mailbox : (s.countTick).mailbox = s.mailbox := rfl
@[simp] theorem State.countTick_events : (s.countTick).events = s.events := rfl
@[simp] theorem State.countTick_faultLevel : (s.countTick).faultLevel = s.faultLevel := rfl
@[simp] theorem State.countTick_draws : (s.countTick).draws = s.draws := rfl
@[simp] theorem State.countTick_pending : (s.countTick).pending = s.pending := rfl

end Sys2Proof.Machine
end

