-- ==== Sys2Proof/Laws/Ops.lean ====
section
/-! SUPPORT. What each shared operation can do: a closed form where it has one, otherwise the fields it
may change and that it changes no other. -/

namespace Sys2Proof.Machine

/-! ### Events -/

/-- An event offered to the queue is folded into the newest one, appended, or lost (R172, R173). -/
theorem Events.offer_cases (q : Events) (counter : Nat) (r : Report) :
    (q.coalesces r = true ∧ q.offer counter r = q.fold r) ∨
      (q.coalesces r = false ∧ q.queue.length < 31 ∧ q.offer counter r = q.append r) ∨
      (q.coalesces r = false ∧ 31 ≤ q.queue.length ∧ q.offer counter r = q.lose counter r) := by
  unfold Events.offer
  by_cases hc : q.coalesces r = true
  · exact .inl ⟨hc, by simp [hc]⟩
  · simp only [Bool.not_eq_true] at hc
    by_cases hl : q.queue.length < 31
    · exact .inr (.inl ⟨hc, hl, by simp [hc, hl]⟩)
    · exact .inr (.inr ⟨hc, by omega, by simp [hc, hl]⟩)

@[simp] theorem Events.offers_nil (q : Events) (counter : Nat) : q.offers counter [] = q := rfl

@[simp] theorem Events.offers_cons (q : Events) (counter : Nat) (r : Report) (rs : List Report) :
    q.offers counter (r :: rs) = (q.offer counter r).offers counter rs := rfl

theorem Events.offers_append (q : Events) (counter : Nat) (rs ts : List Report) :
    q.offers counter (rs ++ ts) = (q.offers counter rs).offers counter ts := by
  simp [Events.offers, List.foldl_append]

/-- A queue that takes an event keeps its mask (R176). -/
theorem Events.offer_alertMask (q : Events) (counter : Nat) (r : Report) :
    (q.offer counter r).alertMask = q.alertMask := by
  unfold Events.offer Events.lose
  split
  · rfl
  · split
    · rfl
    · split <;> rfl

/-! ### Steps of a running part -/

theorem whileRunning_running {s : State} (h : s.resetPhase = .running) (f : State → State) :
    whileRunning s f = .next (f s) := by simp [whileRunning, h]

theorem whileRunning_held {s : State} (h : s.resetPhase ≠ .running) (f : State → State) :
    whileRunning s f = .next s := by
  unfold whileRunning
  split <;> first | contradiction | rfl

/-! ### Line chains and write decisions -/

/-- A FORWARD request joins the waiting set, whatever the transaction (R61). -/
theorem State.joinForward_frame (s : State) (t : Transaction) :
    ∃ r : Request, r.owner = .waq t.requester t.tag ∧
      s.joinForward t = { s with mport := { s.mport with waiting := s.mport.waiting ++ [r] } } := by
  unfold State.joinForward
  split <;> exact ⟨_, rfl, rfl⟩

/-- Deciding the head of a chain changes the WAQ, the waiting set, the answers and the events alone
(R59, R60). -/
theorem State.settleHead_frame (s : State) (e : WaqEntry) :
    ∃ waq waiting answers events, s.settleHead e =
      { s with
        waq := waq
        mport := { s.mport with waiting := waiting }
        answers := answers
        events := events } := by
  have ready : ∀ t, ∃ waq waiting answers events, s.makeReady t =
      { s with
        waq := waq
        mport := { s.mport with waiting := waiting }
        answers := answers
        events := events } := by
    intro t
    obtain ⟨r, -, h⟩ := (s.setWaqState t.requester t.tag .ready).joinForward_frame t
    exact ⟨_, _, _, _, h⟩
  unfold State.settleHead
  split
  · exact ready _
  · unfold State.decideWrite
    split
    · exact ⟨_, _, _, _, rfl⟩
    · exact ready _
    · split
      · split
        · exact ready _
        · exact ⟨_, _, _, _, rfl⟩
      · exact ready _

theorem State.advanceBy_frame (n : Nat) : ∀ s : State,
    ∃ waq waiting answers events, s.advanceBy n =
      { s with
        waq := waq
        mport := { s.mport with waiting := waiting }
        answers := answers
        events := events } := by
  induction n with
  | zero => exact fun s => ⟨_, _, _, _, rfl⟩
  | succ n ih =>
    intro s
    unfold State.advanceBy
    split
    · exact ⟨_, _, _, _, rfl⟩
    · rename_i e _
      obtain ⟨w, m, a, v, h⟩ := s.settleHead_frame e
      obtain ⟨w', m', a', v', h'⟩ := ih (s.settleHead e)
      exact ⟨w', m', a', v', by rw [h', h]⟩

/-- Deciding every head changes the WAQ, the waiting set, the answers and the events alone (R58). -/
theorem State.advance_frame (s : State) :
    ∃ waq waiting answers events, s.advance =
      { s with
        waq := waq
        mport := { s.mport with waiting := waiting }
        answers := answers
        events := events } :=
  s.advanceBy_frame s.waq.length

theorem State.advanceBy_of_headsDecided {s : State} (h : s.headsDecided) (n : Nat) :
    s.advanceBy n = s := by
  cases n with
  | zero => rfl
  | succ n => simp [State.advanceBy, show nextHead [] s.waq = none from h]

/-- Nothing is decided when every head is. -/
theorem State.advance_of_headsDecided {s : State} (h : s.headsDecided) : s.advance = s :=
  State.advanceBy_of_headsDecided h _

/-! ### The Capture Buffer -/

theorem State.grantCapturesBy_frame (n : Nat) : ∀ s : State,
    ∃ waq captures waiting, s.grantCapturesBy n =
      { s with waq := waq, captures := captures, mport := { s.mport with waiting := waiting } } := by
  induction n with
  | zero => exact fun s => ⟨_, _, _, rfl⟩
  | succ n ih =>
    intro s
    unfold State.grantCapturesBy
    split
    · split
      · exact ⟨_, _, _, rfl⟩
      · rename_i e _
        obtain ⟨w, c, m, h⟩ := ih (s.grantCapture e.txn)
        exact ⟨w, c, m, by rw [h]; rfl⟩
    · exact ⟨_, _, _, rfl⟩

/-- Granting changes the WAQ, the Capture Buffer and the waiting set alone (R71, R72). -/
theorem State.grantCaptures_frame (s : State) :
    ∃ waq captures waiting, s.grantCaptures =
      { s with waq := waq, captures := captures, mport := { s.mport with waiting := waiting } } :=
  s.grantCapturesBy_frame _

/-- Nothing is granted when no entry is free or no write waits for one (R71). -/
theorem State.grantCaptures_of_capturesGranted {s : State} (h : s.capturesGranted) :
    s.grantCaptures = s := by
  unfold State.grantCaptures Config.captureEntries State.grantCapturesBy
  split
  · rename_i hl
    rcases h with h | h
    · simp only [Config.captureEntries] at hl
      omega
    · have : s.oldestCaptureWait = none := by
        unfold State.oldestCaptureWait
        rw [List.find?_eq_none]
        intro e he
        simpa using h e he
      simp [this]
  · rfl

/-- The end of a step: the grants, and the age clock one further. -/
theorem State.closeStep_frame (s : State) :
    ∃ waq captures waiting, s.closeStep =
      { s with
        waq := waq
        captures := captures
        mport := { s.mport with waiting := waiting, ageClock := s.mport.ageClock + 1 } } := by
  obtain ⟨w, c, m, h⟩ := s.grantCaptures_frame
  exact ⟨w, c, m, by unfold State.closeStep; rw [h]⟩

theorem State.closeStep_of_capturesGranted {s : State} (h : s.capturesGranted) :
    s.closeStep = { s with mport := { s.mport with ageClock := s.mport.ageClock + 1 } } := by
  unfold State.closeStep
  rw [State.grantCaptures_of_capturesGranted h]

/-! ### The gate -/

/-- Refusing several transactions one after another (R49). -/
theorem State.foldl_refuse (es : List WaqEntry) : ∀ s : State,
    es.foldl (fun s e => s.refuse e.txn) s =
      { s with
        answers := s.answers ++ es.map fun e => ⟨e.txn.requester, e.txn.tag, .error⟩
        events := s.events.offers s.epoch.counter (es.map fun e =>
          ⟨refusalKind e.txn.kind, e.txn.requester, s.epoch.counter, e.line.setWidth 64, 1⟩) } := by
  induction es with
  | nil => intro s; simp
  | cons e es ih =>
    intro s
    rw [List.foldl_cons, ih]
    simp [WaqEntry.line]

/-- The removals of R49. -/
theorem State.fenceRemovals_eq (s : State) :
    s.fenceRemovals =
      { s with
        waq := (s.waq.filter fun e => !fenceRemoves e).map fun e =>
          if e.state = .capturing then { e with marked := true } else e
        mport := { s.mport with waiting := s.mport.waiting.filter fun r => !r.owner.isWaq }
        answers := s.answers ++
          (s.waq.filter fenceRemoves).map fun e => ⟨e.txn.requester, e.txn.tag, .error⟩
        events := s.events.offers s.epoch.counter ((s.waq.filter fenceRemoves).map fun e =>
          ⟨refusalKind e.txn.kind, e.txn.requester, s.epoch.counter, e.line.setWidth 64, 1⟩) } := by
  unfold State.fenceRemovals
  rw [State.foldl_refuse]

/-- From FENCE the fence closes with no effect (R50). -/
theorem State.enterFence_of_fence {s : State} (h : s.gate.state = .fence) : s.enterFence = s := by
  simp [State.enterFence, h]

/-- From another gate state the fence closes with its removals and *release armed* clear (R49, R51). -/
theorem State.enterFence_of_open {s : State} (h : s.gate.state ≠ .fence) :
    s.enterFence =
      State.fenceRemovals { s with gate := { s.gate with state := .fence, armed := none } } := by
  simp [State.enterFence, h]

theorem State.enterFence_state (s : State) : s.enterFence.gate.state = .fence := by
  by_cases h : s.gate.state = .fence
  · rw [State.enterFence_of_fence h, h]
  · rw [State.enterFence_of_open h, State.fenceRemovals_eq]

/-- A hold that opens changes the gate state, the WAQ, the waiting set, the answers and the events alone
(R48). -/
theorem State.openHold_frame (s : State) :
    ∃ waq waiting answers events, s.openHold =
      { s with
        gate := { s.gate with state := .pass }
        waq := waq
        mport := { s.mport with waiting := waiting }
        answers := answers
        events := events } := by
  unfold State.openHold
  obtain ⟨w, m, a, v, h⟩ := State.advance_frame { s with
    gate := { s.gate with state := .pass }
    waq := s.waq.map fun e => if e.state = .parked then { e with state := .waiting } else e }
  exact ⟨w, m, a, v, h⟩

/-- The release conditions are examined: the fence opens exactly when they all hold (R52). -/
theorem State.examineRelease_cases (s : State) :
    (s.releaseDue = true ∧ s.examineRelease = s.openFence) ∨
      (s.releaseDue = false ∧ s.examineRelease = s) := by
  unfold State.examineRelease
  cases h : s.releaseDue <;> simp

theorem State.releaseDue_iff (s : State) :
    s.releaseDue = true ↔
      s.gate.state = .fence ∧ s.gate.armed.isSome = true ∧ s.faultLevel = false ∧
        s.ops.holdsRollback = false ∧ s.epoch.mode ≠ .broken := by
  simp [State.releaseDue, and_assoc]

@[simp] theorem OpCtl.holdsRollback_eq (o : OpCtl) : o.holdsRollback = o.holds .rollback := by
  unfold OpCtl.holdsRollback OpCtl.holds
  cases o.slot <;> rfl

@[simp] theorem OpCtl.holdsGather_eq (o : OpCtl) : o.holdsGather = (o.holds .seal || o.holds .stop) := by
  unfold OpCtl.holdsGather OpCtl.holds
  cases o.slot <;> rfl

/-! ### Bytes written -/

theorem byteAt_setByte_same {w : Nat} (x : BitVec w) (k : Nat) (b : Byte) (h : 8 * k + 8 ≤ w) :
    byteAt (setByte x k b) k = b := by
  apply BitVec.eq_of_getLsbD_eq
  intro i hi
  have h1 : 8 * k + i < w := by omega
  have hw : i < w := by omega
  have h255 : (BitVec.ofNat w 255).getLsbD i = true := by
    rw [BitVec.getLsbD_ofNat]
    have : (255).testBit i = true := by
      interval_cases i <;> rfl
    simp [hw, this]
  simp [byteAt, setByte, hi, h1, h255]

theorem byteAt_setByte_other {w : Nat} (x : BitVec w) (j k : Nat) (b : Byte) (h : j ≠ k) :
    byteAt (setByte x k b) j = byteAt x j := by
  apply BitVec.eq_of_getLsbD_eq
  intro i hi
  by_cases h1 : 8 * j + i < w
  · by_cases h2 : 8 * j + i < 8 * k
    · simp [byteAt, setByte, hi, h1, h2]
    · have h3 : 8 ≤ 8 * j + i - 8 * k := by omega
      have h255 : (BitVec.ofNat w 255).getLsbD (8 * j + i - 8 * k) = false := by
        rw [BitVec.getLsbD_ofNat]
        have : (255).testBit (8 * j + i - 8 * k) = false :=
          Nat.testBit_lt_two_pow (lt_of_lt_of_le (by norm_num : 255 < 2 ^ 8)
            (Nat.pow_le_pow_right (by norm_num) h3))
        simp [this]
      have hlt : 8 * j + i - 8 * k < w := by omega
      rw [BitVec.getLsbD_eq_getElem hlt] at h255
      simp [byteAt, setByte, hi, h1, h2, h255, h3]
  · have hx : x.getLsbD (8 * j + i) = false := BitVec.getLsbD_of_ge _ _ (by omega)
    simp [byteAt, setByte, hi, h1, hx]

/-- The staged bytes replace the bytes they reach; the others stay (R156). -/
theorem byteAt_writeBytesFrom {w : Nat} (bs : List Byte) : ∀ (k : Nat) (x : BitVec w) (j : Nat),
    8 * j + 8 ≤ w →
    byteAt (writeBytesFrom k x bs) j =
      if k ≤ j ∧ j < k + bs.length then bs.getD (j - k) 0 else byteAt x j := by
  induction bs with
  | nil =>
    intro k x j _
    have : ¬(k ≤ j ∧ j < k + ([] : List Byte).length) := by simp
    simp only [writeBytesFrom, this, if_false]
  | cons b bs ih =>
    intro k x j hj
    rw [writeBytesFrom, ih (k + 1) _ j hj]
    by_cases hk : j = k
    · subst hk
      simp [byteAt_setByte_same _ _ _ hj]
    · rw [byteAt_setByte_other _ _ _ _ hk]
      by_cases h1 : k + 1 ≤ j ∧ j < k + 1 + bs.length
      · have h2 : k ≤ j ∧ j < k + (b :: bs).length := by simp; omega
        have h3 : j - k = j - (k + 1) + 1 := by omega
        rw [if_pos h1, if_pos h2, h3]
        rfl
      · have h2 : ¬(k ≤ j ∧ j < k + (b :: bs).length) := by simp; omega
        simp only [h1, h2, if_false]

end Sys2Proof.Machine
end

