-- ==== Sys2Proof/Laws/Operations.lean ====
section
/-! SUPPORT. What the shared operations of the Operation Controller, the Epoch Controller, the Journal
Writer and the Journal Checker can do. -/

namespace Sys2Proof.Machine

/-! ### The completion of a command -/

/-- A command that belongs to the operation completes; otherwise nothing happens (R80, R161). -/
theorem State.completeIf_eq (s : State) (b : Bool) (res : CommandResult) (why : Reason)
    (d : BitVec 768) :
    s.completeIf b res why d =
      { s with
        mailbox := s.mailbox.completed b res why d
        ops := { s.ops with abortPending := if b then false else s.ops.abortPending }
        events := s.events.offers s.epoch.counter
          (if b then [doneReport s.epoch.counter s.mailbox.cmd res why] else []) } := by
  cases b <;> simp [State.completeIf, Mailbox.completed, State.complete, State.report]

@[simp] theorem Mailbox.completed_false (m : Mailbox) (res : CommandResult) (why : Reason)
    (d : BitVec 768) : m.completed false res why d = m := rfl

/-! ### The end of a request -/

/-- A command that ends an outstanding request frees its slot, lets its owner act on the outcome and closes the
step, whether it is an answer or a timeout (R147, R148). -/
theorem State.exec_of_requestEnds {s : State} {ident : BitVec 8} {a : MemAnswer} {c : Instr}
    {withheld : List Withheld} {r : Request} (h : s.requestEnds ident a c withheld)
    (hr : s.resetPhase = .running) (ho : s.mport.outstandingOf ident = some r) :
    exec c s =
      .next (State.closeStep (State.ownerActs
        { s with
          mport :=
            { s.mport with
              outstanding := s.mport.outstanding.filter fun o => o.ident != ident
              withheld := withheld } } r a)) := by
  rcases h with ⟨rfl, rfl⟩ | ⟨rfl, rfl, rfl⟩
  · simp only [exec, execMPortAnswer, whileRunning_running hr, State.portAnswer, ho, State.freeRequest]
  · simp only [exec, execResponseTimeout, whileRunning_running hr, State.timeOut, ho, State.freeRequest,
      State.withhold, Config.withholdTicks]

/-! ### The abandoned reads -/

/-- Abandoning changes the waiting set and the owners of outstanding requests alone (R153). -/
theorem State.abandon_frame (s : State) (o : Owner) :
    ∃ waiting outstanding, s.abandon o =
      { s with mport := { s.mport with waiting := waiting, outstanding := outstanding } } :=
  ⟨_, _, rfl⟩

/-- A part whose abandoned reads stay waiting keeps each of an owner's waiting requests without an owner (log
entry 9). -/
theorem State.abandon_waiting_stays (hc : Config.abandonedStaysWaiting = true) (s : State) (o : Owner) :
    (s.abandon o).mport.waiting =
      s.mport.waiting.map fun r => if r.owner = o then { r with owner := .abandoned } else r := by
  simp only [State.abandon, hc, if_true]
  split
  · rfl
  · rename_i h
    simp only [List.any_eq_true, not_exists, not_and] at h
    refine ((List.map_congr_left fun r hr => ?_).trans (List.map_id _)).symm
    have : r.owner ≠ o := by simpa using h r hr
    simp [this]

/-- A part whose abandoned reads leave the waiting set drops an owner's waiting requests (log entry 9). -/
theorem State.abandon_waiting_leaves (hc : Config.abandonedStaysWaiting = false) (s : State) (o : Owner) :
    (s.abandon o).mport.waiting = s.mport.waiting.filter fun r => r.owner != o := by
  simp only [State.abandon, hc, Bool.false_eq_true, if_false]
  split
  · rfl
  · rename_i h
    refine (List.filter_eq_self.mpr fun r hr => ?_).symm
    simp only [List.any_eq_true, not_exists, not_and] at h
    simpa using h r hr

/-- Abandoning an owner's request does what `RequestAbandoned` says to the M port, and nothing else (R153). -/
theorem State.abandon_spec (s : State) (o : Owner) :
    ∃ m, RequestAbandoned o s.mport m ∧ s.abandon o = { s with mport := m } := by
  refine ⟨(s.abandon o).mport, ⟨rfl, ?_⟩, rfl⟩
  cases hc : Config.abandonedStaysWaiting
  · exact .inr (s.abandon_waiting_leaves hc o)
  · exact .inl (s.abandon_waiting_stays hc o)

/-- Abandoning VERIFY's requests is abandoning its two owners' one after the other. -/
theorem Request.abandonScan_eq (r : Request) :
    r.abandonScan =
      (fun x : Request => if x.owner = .verifyHeader then { x with owner := .abandoned } else x)
        (if r.owner = .verifyImage then { r with owner := .abandoned } else r) := by
  rcases r with ⟨o, k, a, n, m, d, j⟩
  cases o <;> rfl

/-- VERIFY's two reads are abandoned, and nothing else changes (R141, R153). -/
theorem State.abandon_verify (s : State) :
    ∃ m, ScanAbandoned s.mport m ∧
      (s.abandon .verifyImage).abandon .verifyHeader = { s with mport := m } := by
  refine ⟨((s.abandon .verifyImage).abandon .verifyHeader).mport, ⟨?_, ?_⟩, rfl⟩
  · simp only [State.abandon, List.map_map]
    congr 1
    refine List.map_congr_left fun x _ => ?_
    simp only [Function.comp_apply, Request.abandonScan_eq]
    by_cases h1 : x.request.owner = .verifyImage
    · simp [h1]
    · by_cases h2 : x.request.owner = .verifyHeader <;> simp [h1, h2]
  · cases hc : Config.abandonedStaysWaiting
    · refine .inr ?_
      rw [State.abandon_waiting_leaves hc, State.abandon_waiting_leaves hc, List.filter_filter]
      refine List.filter_congr fun r _ => ?_
      cases r.owner <;> rfl
    · refine .inl ?_
      rw [State.abandon_waiting_stays hc, State.abandon_waiting_stays hc, List.map_map]
      exact List.map_congr_left fun r _ => (Request.abandonScan_eq r).symm

/-- VERIFY's early end: the scan is gone, its reads abandoned and its command completed (R141). -/
theorem State.stopScan_frame (s : State) (res : CommandResult) (sc : Scan) (h : s.scan = some sc) :
    ∃ waiting outstanding, s.stopScan res =
      { s with
        scan := none
        mport := { s.mport with waiting := waiting, outstanding := outstanding }
        mailbox := s.mailbox.completed true res .none (scanData sc)
        ops := { s.ops with abortPending := false }
        events := s.events.offer s.epoch.counter
          (doneReport s.epoch.counter s.mailbox.cmd res .none) } := by
  simp only [State.stopScan, h]
  exact ⟨_, _, rfl⟩

/-! ### Seal requests and the freeing of the slot -/

/-- A seal request outside JOURNALING has no effect (R90). -/
theorem State.requestSeal_outside {s : State} (h : s.epoch.mode ≠ .journaling) (src : Source) :
    s.requestSeal src = s := by simp [State.requestSeal, h]

/-- On an idle slot the seal starts (R83). -/
theorem State.requestSeal_idle {s : State} (h : s.epoch.mode = .journaling) (hs : s.ops.slot = none)
    (src : Source) : s.requestSeal src = s.startGather .seal src .empty false := by
  simp [State.requestSeal, h, hs]

/-- A running seal is joined, a STOP or ROLLBACK owes it, a VERIFY is cancelled for it (R83, R85, R87). -/
theorem State.requestSeal_busy {s : State} {sl : Slot} (h : s.epoch.mode = .journaling)
    (hs : s.ops.slot = some sl) (src : Source) :
    s.requestSeal src =
      match sl.operation with
      | .seal => s.joinSeal src
      | .stop => { s with ops := { s.ops with owed := s.ops.owed.add src } }
      | .rollback => { s with ops := { s.ops with owed := s.ops.owed.add src } }
      | .verify => (s.stopScan .preempted).startGather .seal src .empty false := by
  cases ho : sl.operation <;> simp [State.requestSeal, h, hs, ho]

/-- All that an automatic seal request can do in JOURNALING (R83, R85, R87, R88, R141). -/
theorem State.requestSeal_spec {s : State} (h : s.epoch.mode = .journaling)
    (hv : s.ops.holds .verify = true → s.scan.isSome = true) (src : Source) :
    SealAsked src s (s.requestSeal src) := by
  cases hs : s.ops.slot with
  | none =>
    simp only [SealAsked, hs, State.requestSeal_idle h hs]
    rfl
  | some sl =>
    simp only [SealAsked, hs, State.requestSeal_busy h hs]
    cases ho : sl.operation
    · simp [State.joinSeal, hs, ho]
    · rfl
    · rfl
    · obtain ⟨sc, hsc⟩ := Option.isSome_iff_exists.mp (hv (by simp [OpCtl.holds, hs, ho]))
      obtain ⟨m, hm, hab⟩ := s.abandon_verify
      refine ⟨sc, hsc, ?_, ?_⟩ <;> simp only [State.stopScan, hsc, hab]
      · exact hm
      · rfl

/-- The slot frees outside JOURNALING (R91). -/
theorem State.freeSlot_outside {s : State} (h : s.epoch.mode ≠ .journaling) :
    s.freeSlot = { s with ops := { s.ops with slot := none } } := by
  simp [State.freeSlot, h]

theorem SealSources.first_none_iff (q : SealSources) : q.first = none ↔ q = .empty := by
  rcases q with ⟨_ | _, _ | _, _ | _⟩ <;> simp [SealSources.first, SealSources.empty]

/-- The slot frees in JOURNALING: the owed flags are examined, and a qualifying seal starts (R91). -/
theorem State.freeSlot_journaling {s : State} (h : s.epoch.mode = .journaling) :
    (s.qualifying = .empty ∧ s.freeSlot =
        { s with ops := { s.ops with slot := none, owed := ⟨s.ops.owed.timer, false, false⟩ } }) ∨
      ∃ src, s.qualifying.first = some src ∧ s.freeSlot =
        State.startGather
          { s with
            ops :=
              { s.ops with
                slot := none
                owed := ⟨s.ops.owed.timer && !s.qualifying.timer, false, false⟩ } }
          .seal src (s.qualifying.remove src) false := by
  cases hq : s.qualifying.first with
  | none =>
    have he := (SealSources.first_none_iff _).mp hq
    refine .inl ⟨he, ?_⟩
    have : SealSources.first ⟨false, false, false⟩ = none := rfl
    simp [State.freeSlot, h, he, SealSources.empty, this]
  | some src => exact .inr ⟨src, rfl, by simp [State.freeSlot, h, hq]⟩

/-- The seal that the freed slot takes, and the owed flags that stay (R91). -/
theorem State.freeSlot_owedSeal {s : State} (h : s.epoch.mode = .journaling) :
    s.freeSlot.ops =
      { s.ops with
        slot := s.owedSeal s.ops.owed (s.gate.state == .pass)
        owed := ⟨s.ops.owed.timer && s.timer.extend, false, false⟩ } := by
  have hw : s.journal.atHighWater = decide (s.journal.capacity ≤ s.journal.head - s.journal.tail + 64) := rfl
  unfold State.freeSlot State.owedSeal
  simp only [h, if_true, State.qualifying, hw]
  rcases s.ops.owed with ⟨ht, hp, hj⟩
  cases ht <;> cases hp <;> cases hj <;> cases s.timer.extend <;>
    cases decide (s.journal.capacity ≤ s.journal.head - s.journal.tail + 64) <;> rfl

/-! ### The ends of a hold, and the epoch open -/

/-- An operation that gives its hold back changes the gate state, the WAQ, the waiting set, the answers
and the events alone (R50, R48). -/
theorem State.endHold_frame (s : State) (sl : Slot) :
    ∃ waq waiting answers events, s.endHold sl =
      { s with
        gate :=
          { s.gate with
            state := if sl.moved ∧ s.gate.state = .holdTracked then .pass else s.gate.state }
        waq := waq
        mport := { s.mport with waiting := waiting }
        answers := answers
        events := events } := by
  unfold State.endHold
  by_cases h : sl.moved = true ∧ s.gate.state = .holdTracked
  · rw [if_pos h, if_pos h]
    exact s.openHold_frame
  · rw [if_neg h, if_neg h]
    exact ⟨_, _, _, _, rfl⟩

/-- Returning the undecided writes to the decision changes the WAQ, the waiting set, the answers and the
events alone (R62). -/
theorem State.redecide_frame (s : State) :
    ∃ waq waiting answers events, s.redecide =
      { s with
        waq := waq
        mport := { s.mport with waiting := waiting }
        answers := answers
        events := events } := by
  unfold State.redecide
  obtain ⟨w, m, a, v, h⟩ := State.advance_frame { s with
    waq := s.waq.map fun e => if e.undecides then { e with state := .waiting } else e
    mport :=
      { s.mport with
        waiting := s.mport.waiting.filter fun r => !s.waq.any fun e => e.undecides && e.owns r } }
  exact ⟨w, m, a, v, h⟩

/-- The epoch-open actions (R12). -/
theorem State.epochOpen_frame (s : State) :
    ∃ waq waiting answers events, s.epochOpen =
      { s with
        ltt := []
        regions := s.regions.copied
        timer := s.timer.loaded
        waq := waq
        mport := { s.mport with waiting := waiting }
        answers := answers
        events := events } := by
  obtain ⟨w, m, a, v, h⟩ :=
    State.redecide_frame (State.loadTimer (State.copyRegions { s with ltt := [] }))
  exact ⟨w, m, a, v, h⟩

/-! ### Captures and records -/

/-- Freeing the entry of a capture read changes the WAQ, the Capture Buffer and the waiting set alone
(R70, R71). -/
theorem State.freeReading_frame (s : State) (q : BitVec 4) (g : BitVec 6) :
    ∃ waq captures waiting, s.freeReading q g =
      { s with waq := waq, captures := captures, mport := { s.mport with waiting := waiting } } := by
  obtain ⟨w, c, m, h⟩ := State.grantCaptures_frame
    { s with captures := s.captures.filter fun c => !c.reads q g }
  exact ⟨w, c, m, h⟩

/-- A capture that ends in a refusal: the answer and the event of the write are first, and neither the
journal nor the table changes (R74, R75, R76). -/
theorem State.endCapture_frame (s : State) (t : Transaction) (kind : EventKind) :
    ∃ waq captures waiting answers events, s.endCapture t kind =
      { s with
        waq := waq
        captures := captures
        mport := { s.mport with waiting := waiting }
        answers := answers
        events := events } := by
  unfold State.endCapture
  obtain ⟨w, c, m, h⟩ := State.freeReading_frame
    (((s.removeWaq t.requester t.tag).answer t.requester t.tag .error).reportLine kind t.requester t.line)
    t.requester t.tag
  obtain ⟨w', m', a', v', h'⟩ := State.advance_frame
    (State.freeReading
      (((s.removeWaq t.requester t.tag).answer t.requester t.tag .error).reportLine kind t.requester
        t.line) t.requester t.tag)
  exact ⟨w', c, m', a', v', by simp only [h']; rw [h]; rfl⟩

/-- The end of a record changes written, the ended marks, the WAQ, the Capture Buffer and the waiting set
alone (R30). -/
theorem State.endRecord_frame (s : State) (p : Nat) :
    ∃ written ended waq captures waiting, s.endRecord p =
      { s with
        journal := { s.journal with written := written, ended := ended }
        waq := waq
        captures := captures
        mport := { s.mport with waiting := waiting } } := by
  unfold State.endRecord
  obtain ⟨w, c, m, h⟩ := State.grantCaptures_frame
    { s with
      captures := s.captures.filter fun c => !c.holds p
      journal :=
        { s.journal with
          written :=
            (passEnded (insertPosition p s.journal.ended).length s.journal.written
              (insertPosition p s.journal.ended)).1
          ended :=
            (passEnded (insertPosition p s.journal.ended).length s.journal.written
              (insertPosition p s.journal.ended)).2 } }
  exact ⟨_, _, w, c, m, h⟩

/-- The rollback in DRAIN fails or nothing happens (R118, R119). -/
theorem State.checkTarget_cases (s : State) :
    s.checkTarget = s ∨
      ∃ sl w, s.ops.slot = some sl ∧ s.engine = some w ∧ sl.operation = .rollback ∧ sl.phase = .drain ∧
        targetHolds w.targetEpoch s.epoch.table = false ∧ s.checkTarget = s.failDrain sl w := by
  unfold State.checkTarget
  split
  · rename_i sl w hs hw
    split
    · rename_i h
      exact .inr ⟨sl, w, hs, hw, h.1, h.2.1, h.2.2, rfl⟩
    · exact .inl rfl
  · exact .inl rfl

/-! ### The pressure drops -/

/-- The next allocation is under pressure (R31). -/
theorem State.underPressure_iff (s : State) :
    s.journal.underPressure = true ↔ s.pressedAt s.journal.tail :=
  decide_eq_true_iff (p := s.journal.capacity ≤ s.journal.head + 1 - s.journal.tail + Config.reserve)

/-- One drop, of the oldest of the entries to go (R32). -/
theorem State.dropOldest_eq {s : State} {c d : Checkpoint} {rest : List Checkpoint}
    (h : s.epoch.table = c :: d :: rest) (requester : BitVec 4) :
    s.dropOldest requester = s.afterDrops requester [c] d rest := by
  simp only [State.dropOldest, h]
  rfl

/-- Drops one after another are the drops of all the entries (R32). -/
theorem State.afterDrops_cons (s : State) (requester : BitVec 4) (c d : Checkpoint)
    (gone rest : List Checkpoint) (x : Checkpoint) (h : (gone ++ [d]).head? = some x) (l : List Checkpoint) :
    (s.afterDrops requester [c] x l).afterDrops requester gone d rest =
      s.afterDrops requester (c :: gone) d rest := by
  cases gone with
  | nil => cases h; rfl
  | cons y ys => cases h; rfl

/-- An allocation under pressure drops exactly the COMMITTED entries in front of the first start at which it is
no longer under pressure, or all but the last entry (R31, R32). -/
theorem State.relieveBy_eq (requester : BitVec 4) (d : Checkpoint) (rest : List Checkpoint) :
    ∀ (gone : List Checkpoint) (n : Nat) (s : State), s.epoch.table = gone ++ d :: rest → gone.length < n →
      (∀ c ∈ gone, c.state = .committed) → (gone ≠ [] → s.pressedAt s.journal.tail) →
      (∀ c ∈ gone.tail, s.pressedAt c.start) →
      (¬s.pressedAt (if gone = [] then s.journal.tail else d.start) ∨ rest = []) →
      s.relieveBy requester n = s.afterDrops requester gone d rest := by
  intro gone
  induction gone with
  | nil =>
    intro n s ht hn _ _ _ hs
    obtain ⟨n, rfl⟩ := Nat.exists_eq_succ_of_ne_zero (Nat.ne_of_gt hn)
    have : ¬(s.journal.underPressure = true ∧ canDrop s.epoch.table = true) := by
      rintro ⟨hu, hc⟩
      rcases hs with hs | rfl
      · exact hs (s.underPressure_iff.mp hu)
      · rw [ht] at hc; exact absurd hc (by simp [canDrop])
    simp only [State.relieveBy, if_neg this]
    have he : { s.epoch with table := d :: rest } = s.epoch := by
      rw [← show s.epoch.table = d :: rest from ht]
    simp only [State.afterDrops, if_true, he]
    rfl
  | cons c gone ih =>
    intro n s ht hn hc hp hq hs
    obtain ⟨n, rfl⟩ := Nat.exists_eq_succ_of_ne_zero (Nat.ne_of_gt (Nat.lt_of_le_of_lt (Nat.zero_le _) hn))
    obtain ⟨x, l, hx⟩ : ∃ x l, gone ++ d :: rest = x :: l := by
      cases gone with
      | nil => exact ⟨_, _, rfl⟩
      | cons y ys => exact ⟨_, _, rfl⟩
    have ht' : s.epoch.table = c :: x :: l := by rw [ht, List.cons_append, hx]
    have hgo : s.journal.underPressure = true ∧ canDrop s.epoch.table = true := by
      refine ⟨s.underPressure_iff.mpr (hp (List.cons_ne_nil _ _)), ?_⟩
      rw [ht']
      simp [canDrop, hc c (List.mem_cons_self ..)]
    simp only [State.relieveBy, if_pos hgo]
    rw [State.dropOldest_eq ht']
    have hh : (gone ++ [d]).head? = some x := by
      cases gone with
      | nil => cases hx; rfl
      | cons y ys => cases hx; rfl
    have hxs : gone ≠ [] → x ∈ gone := by
      intro h
      cases gone with
      | nil => exact absurd rfl h
      | cons y ys => cases hx; exact List.mem_cons_self ..
    rw [ih n (s.afterDrops requester [c] x l) hx.symm (Nat.lt_of_succ_lt_succ hn) (fun y hy => hc y (List.mem_cons_of_mem _ hy))
      (fun h => hq x (hxs h)) (fun y hy => hq y (List.mem_of_mem_tail hy)) ?_]
    · exact s.afterDrops_cons requester c d gone rest x hh l
    · cases gone with
      | nil => cases hx; exact hs
      | cons y ys => exact hs

/-- The pressure drops of an allocation, all at once (R31, R32). -/
theorem State.relieve_eq {s : State} (requester : BitVec 4) {gone rest : List Checkpoint} {d : Checkpoint}
    (ht : s.epoch.table = gone ++ d :: rest) (hc : ∀ c ∈ gone, c.state = .committed)
    (hp : gone ≠ [] → s.pressedAt s.journal.tail) (hq : ∀ c ∈ gone.tail, s.pressedAt c.start)
    (hs : ¬s.pressedAt (if gone = [] then s.journal.tail else d.start) ∨ rest = []) :
    s.relieve requester = s.afterDrops requester gone d rest :=
  State.relieveBy_eq requester d rest gone _ s ht (by simp [ht]) hc hp hq hs

/-! ### Rising lists -/

theorem mem_insertLine (l x : LineIndex) (xs : List LineIndex) :
    x ∈ insertLine l xs ↔ x = l ∨ x ∈ xs := by
  induction xs with
  | nil => simp [insertLine]
  | cons y ys ih =>
    unfold insertLine
    split
    · simp
    · split
      · rename_i h
        subst h
        simp
      · simp only [List.mem_cons, ih]
        tauto

/-- Entering a line keeps the list strictly rising (log entry 13). -/
theorem insertLine_pairwise (l : LineIndex) {xs : List LineIndex} (h : xs.Pairwise (· < ·)) :
    (insertLine l xs).Pairwise (· < ·) := by
  induction xs with
  | nil => simp [insertLine]
  | cons y ys ih =>
    rw [List.pairwise_cons] at h
    unfold insertLine
    split
    · rename_i hl
      refine List.pairwise_cons.mpr ⟨?_, List.pairwise_cons.mpr h⟩
      intro z hz
      rcases List.mem_cons.mp hz with rfl | hz
      · exact hl
      · exact BitVec.lt_trans hl (h.1 z hz)
    · split
      · exact List.pairwise_cons.mpr h
      · rename_i h1 h2
        refine List.pairwise_cons.mpr ⟨?_, ih h.2⟩
        intro z hz
        rcases (mem_insertLine l z ys).mp hz with rfl | hz
        · have hne : z.toNat ≠ y.toNat := fun he => h2 (BitVec.eq_of_toNat_eq he)
          rw [BitVec.lt_def] at h1 ⊢
          omega
        · exact h.1 z hz

theorem mem_insertPosition (p x : Nat) (xs : List Nat) : x ∈ insertPosition p xs ↔ x = p ∨ x ∈ xs := by
  induction xs with
  | nil => simp [insertPosition]
  | cons y ys ih =>
    unfold insertPosition
    split
    · simp
    · split
      · rename_i h
        subst h
        simp
      · simp only [List.mem_cons, ih]
        tauto

/-- Written advances over positions that are marked ended, and the marks passed are gone (R30). -/
theorem passEnded_spec (n : Nat) : ∀ (w : Nat) (ended : List Nat),
    w ≤ (passEnded n w ended).1 ∧
      (∀ x, w ≤ x → x < (passEnded n w ended).1 → x ∈ ended) ∧
      ∀ x, x ∈ (passEnded n w ended).2 ↔ x ∈ ended ∧ ¬(w ≤ x ∧ x < (passEnded n w ended).1) := by
  induction n with
  | zero => intro w ended; simp [passEnded]; omega
  | succ n ih =>
    intro w ended
    unfold passEnded
    split
    · rename_i hw
      obtain ⟨h1, h2, h3⟩ := ih (w + 1) (ended.filter fun p => p != w)
      have hmem : w ∈ ended := by simpa using hw
      refine ⟨by omega, ?_, ?_⟩
      · intro x hx hlt
        by_cases hxw : x = w
        · exact hxw ▸ hmem
        · exact (List.mem_filter.mp (h2 x (by omega) hlt)).1
      · intro x
        rw [h3 x, List.mem_filter]
        by_cases hxw : x = w
        · subst hxw
          simp
          omega
        · simp [hxw]
          omega
    · simp
      omega

/-! ### Reads of the window -/

/-- The bytes sent are the snapshot's from the pointer on, and the pointer has passed them (R156). -/
theorem State.sendBytes_eq (b : BitVec 768) (n : Nat) : ∀ s : State,
    State.sendBytes b n s =
      ((List.range n).map fun k => byteAt b (s.i2c.pointer + k), s.pointAt (s.i2c.pointer + n)) := by
  induction n with
  | zero => intro s; rfl
  | succ n ih =>
    intro s
    simp only [State.sendBytes, ih, List.range_succ_eq_map, List.map_cons, List.map_map,
      State.pointAt, Function.comp_def, Nat.add_assoc, Nat.add_comm 1, Nat.add_zero]

/-- What a read transaction to the part's own address answers and leaves (R155, R156, R157). -/
theorem State.readTransaction_acknowledged {s : State} {address : BusAddress}
    (h : s.acknowledges address = true) (n : Nat) :
    s.readTransaction address n =
      some ((List.range n).map fun k => byteAt (s.snapshot s.i2c.index) k, s.pointAt n) := by
  simp only [State.readTransaction, h, if_true, State.sendBytes_eq]
  simp [State.pointAt]

/-! ### The tests of a record -/

/-- A record passes exactly when its flags, lap, check and epoch do (R25). -/
theorem recordPasses_iff (p : Nat) (expected : Option Nat) (image : Line) (h : BitVec 128) :
    recordPasses p expected image h = true ↔
      (headerFlags h = 0 ∨ headerFlags h = 1) ∧ headerLap h = BitVec.ofNat 8 p ∧
        checkValue image h = headerCheck h ∧ expected = some (headerEpoch h) := by
  simp [recordPasses, flagsTest, lapTest, checkTest, epochTest, and_assoc]

end Sys2Proof.Machine
end

