-- ==== Sys2Proof/Tests/Slice0.lean ====
section
/-! SUPPORT. Our own tests: ill-formed operands are refused by WellFormed, small tests of the commands
whose expected values come from the manual's worked examples and rules, and a witness for the hypotheses
of each statement. -/

namespace Sys2Proof.Tests

set_option Elab.async false

open Sys2Proof Sys2Proof.Machine

/-! ### Ill-formed operands -/

/-- A transaction that asks for memory bytes. -/
def txn (kind : Access) (line size : Nat) : Transaction :=
  { requester := 3, tag := 5, kind := kind, addr := BitVec.ofNat 40 (line * 64), size := size,
    mask := 0xFF, data := 7 }

theorem test_wf_size_zero : (Instr.pTransactionAccept (txn .write 64 0)).wellFormed = false := by decide
theorem test_wf_size_large : (Instr.pTransactionAccept (txn .read 64 65)).wellFormed = false := by decide
theorem test_wf_code : (Instr.invalidCommandCode 0x0C).wellFormed = false := by decide
theorem test_wf_abort_code : (Instr.invalidCommandCode 0x0F).wellFormed = false := by decide
theorem test_wf_own_row : (Instr.registerWrite ⟨.sevenBit 0x2C, 0x03⟩ [0]).wellFormed = false := by decide
theorem test_wf_timer : (Instr.timerCtlWrite []).wellFormed = false := by decide
theorem test_wf_ack : (Instr.eventAck []).wellFormed = false := by decide
theorem test_wf_mask : (Instr.alertMaskWrite []).wellFormed = false := by decide

/-! ### Small states -/

/-- What a step makes of a state, tested. -/
def after (c : Instr) (s : State) (test : State → Bool) : Bool :=
  match exec c s with
  | .next t => test t
  | .fault _ => false
  | .refused _ => false

/-- A region table whose entry 0 is TRACKED over lines 0x40 to 0x3FFF and entry 1 FENCED over 0x4000 to
0x403F. -/
def twoRegions : Vector RegionEntry 8 :=
  (noRegions.setIfInBounds 0 (.valid .tracked 0x40 0x3FFF)).setIfInBounds 1 (.valid .fenced 0x4000 0x403F)

/-- A PASSTHROUGH part with a journal of 1,024 records, depth 2, and two regions. -/
def configured : State :=
  { State.reset with
    journal := { State.reset.journal with base := 0x1000000000, capacity := 1024, depth := 2 }
    regions := ⟨twoRegions, twoRegions, .untracked, .untracked⟩ }

/-- A JOURNALING part with this table and these positions; the counter is the newest epoch. -/
def journaling (table : List Checkpoint) (head written tail : Nat) : State :=
  { configured with
    epoch := ⟨.journaling, (table.getLast?.map (·.epoch)).getD 0, table⟩
    journal := { configured.journal with head := head, written := written, tail := tail } }

/-- A COMMITTED, USABLE entry opened by the timer. -/
def closed (epoch start : Nat) : Checkpoint := ⟨epoch, start, .committed, .usable, .timer, 0⟩

/-- An OPEN, USABLE entry opened by the timer. -/
def opened (epoch start : Nat) : Checkpoint := ⟨epoch, start, .stillOpen, .usable, .timer, 0⟩

/-- Epoch 1 open at 0 with ten records. -/
def early : State := journaling [opened 1 0] 10 10 0

/-- A request with this owner is outstanding under identifier 7. -/
def awaiting (o : Owner) (s : State) : State :=
  { s with mport := { s.mport with outstanding := [⟨7, ⟨o, .read, 0, 64, 0, 0, 0⟩, 50⟩] } }

/-- The write of `txn` is the WAQ's one entry, in this state. -/
def holding (st : WaqState) (s : State) : State :=
  { s with waq := [⟨txn .write 64 8, st, false, false⟩] }

/-- A capture of that write is being read. -/
def capturing (s : State) : State :=
  awaiting (.capture 3 5)
    { holding .capturing s with captures := [⟨64, 3, 5, .reading⟩] }

/-- A record being written at a position, its bytes all zeros. -/
def recordAt (position : Nat) : Record :=
  { position := position, image := 0, header := 0, repeated := false }

/-- A record is being written. -/
def writing (position : Nat) (line : RecordLine) (attempt : Nat) (s : State) : State :=
  awaiting (match line with | .image => .journalImage position | .header => .journalHeader position)
    { s with captures := [⟨64, 3, 5, .writing (recordAt position) line attempt⟩] }

/-- The slot holds this operation. -/
def inSlot (op : Operation) (src : Source) (phase : Phase) (command moved : Bool) (s : State) : State :=
  { s with
    ops := { s.ops with slot := some ⟨op, src, phase, .empty, command, moved⟩ }
    mailbox := { s.mailbox with cmd := if command then 6 else 0 } }

/-- A command rollback walks at `p` towards `start`, its two reads as given. -/
def walking (target start p : Nat) (image header : ReadSlot) (attempt : Nat) (s : State) : State :=
  { inSlot .rollback .command .restore true true s with
    gate := ⟨.holdAll, none, none⟩
    engine := some ⟨target, start, some p, ⟨image, header⟩, attempt⟩ }

/-- PARAM holds a number, little-endian. -/
def param (n : Nat) (s : State) : State := { s with mailbox := { s.mailbox with param := BitVec.ofNat 128 n } }

/-- The table of two epochs, as R4 and R5 have it. -/
def twoEpochs : State := journaling [closed 1 0, opened 2 40] 65 65 0

/-- A rollback to epoch 2, whose start is 40, in DRAIN. -/
def draining (s : State) : State :=
  { inSlot .rollback .command .drain true true s with
    gate := ⟨.holdAll, none, none⟩, engine := some ⟨2, 40, none, ⟨.idle, .idle⟩, 0⟩ }

/-- VERIFY holds the slot with this scan. -/
def scanning (sc : Scan) (s : State) : State :=
  { inSlot .verify .command .scan true false s with scan := some sc }

/-- The scan of `twoEpochs` at 63, one record before its last, with the image read. -/
def scan63 : Scan := ⟨0, 65, 63, 63, 0, 0, 0, 0, ⟨.got 0, .asking 1⟩⟩

/-! ### Records and events -/

/-- R24: the check value of the ASCII text "123456789". -/
theorem test_crc_text :
    crc16 [0x31, 0x32, 0x33, 0x34, 0x35, 0x36, 0x37, 0x38, 0x39] = 0x29B1#16 := by decide +kernel

/-- Section 2.9: the header line of position 42 of a ring at 0x10_0000_0000. -/
theorem test_header_address : configured.journal.headerAddr 42 = 0x1000001540#40 := by decide +kernel

/-- Section 2.10: the image line and the lap of position 2,959. -/
theorem test_ring_slot :
    configured.journal.imageAddr 2959 = 0x100001C780#40 ∧
      headerLap (headerFields 9 2959 0 0 false) = 0x8F#8 := by decide +kernel

/-- Section 11.7: two refusals behind a head fold into one event. -/
theorem test_coalesce :
    (({ queue := [], nextSeq := 41, alertMask := 0xFFFE } : Events).offers 1
      [⟨.writeRefused, 2, 1, 0x100, 1⟩, ⟨.writeRefused, 2, 1, 0x104, 1⟩,
        ⟨.writeRefused, 2, 1, 0x108, 1⟩, ⟨.memoryError, 5, 1, 0x30300, 1⟩]) =
      { queue := [⟨41, .writeRefused, 2, 1, 0x100, 1⟩, ⟨42, .writeRefused, 2, 1, 0x108, 2⟩,
          ⟨43, .memoryError, 5, 1, 0x30300, 1⟩],
        nextSeq := 44, alertMask := 0xFFFE } := by decide +kernel

/-- The 31 events of section 11.7's overflow, numbered 100 to 130. -/
def crowded : Events :=
  { queue := (List.range 31).map fun i => ⟨100 + i, .commandDone, 0, 1, 0, 1⟩, nextSeq := 131,
    alertMask := 0xFFFF }

/-- Section 11.7: three lost events leave one EVENTS_LOST with count 3 and the first and latest kinds. -/
theorem test_lost :
    ((crowded.offers 1
      [⟨.captureFailed, 7, 1, 0, 1⟩, ⟨.writeRefused, 7, 1, 0, 1⟩, ⟨.epochCommitted, 0, 1, 0, 1⟩]).queue.drop
      31) = [⟨131, .eventsLost, 0, 1, 0x0206, 3⟩] := by decide +kernel

/-! ### The data path -/

/-- Section 3.6: a write to an unmapped line whose unmapped mode is FENCED is refused. -/
theorem test_accept_fenced :
    after (.pTransactionAccept (txn .write 0x20 8))
      { configured with regions := ⟨twoRegions, twoRegions, .fenced, .fenced⟩ }
      (fun t => t.waq = [] ∧ t.answers = [⟨3, 5, .error⟩]) = true := by decide +kernel

/-- R71, R72: a tracked write that misses the LTT asks for its capture read. -/
theorem test_accept_captures :
    after (.pTransactionAccept (txn .write 64 8)) early
      (fun t => t.mport.waitingOwners = [.capture 3 5] ∧ t.captures = [⟨64, 3, 5, .reading⟩]) = true := by
  decide +kernel

/-- The waiting set of section 9.6: f1, s1, c1, f2, j1 in the order they joined. -/
def contended : MPort :=
  { waiting :=
      [⟨.waq 2 0, .write, 0, 8, 0, 0, 0⟩, ⟨.verifyImage, .read, 0, 64, 0, 0, 1⟩,
        ⟨.capture 4 0, .read, 0, 64, 0, 0, 2⟩, ⟨.bypass 9 0, .read, 0, 8, 0, 0, 3⟩,
        ⟨.journalHeader 900, .write, 0, 64, 0, 0, 4⟩],
    outstanding := [], withheld := [], ageClock := 5 }

/-- Section 9.6: the JOURNAL request is granted first. -/
theorem test_grant_journal :
    after (.arbiterGrant 9 0) { early with mport := contended }
      (fun t => t.mport.outstandingOwners = [.journalHeader 900]) = true := by decide +kernel

/-- R148: a timed-out FORWARD write is answered ERROR and its identifier withheld. -/
theorem test_timeout :
    after (.responseTimeout 7) (awaiting (.waq 3 5) (holding .issued early))
      (fun t => t.answers = [⟨3, 5, .error⟩] ∧ t.mport.withheld = [⟨7, 400⟩]) = true := by decide +kernel

/-- R124, R148: a restore read that times out in its first attempt is asked for again. -/
theorem test_timeout_retries :
    after (.responseTimeout 7) (awaiting .restoreHeader (walking 2 40 64 (.got 0) (.asking 1) 0 twoEpochs))
      (fun t => t.engine.any (·.current == ⟨.got 0, .asking 2⟩) ∧
        t.mport.waitingOwners = [.restoreHeader] ∧ t.mport.withheld = [⟨7, 400⟩]) = true := by
  decide +kernel

/-- R146: after 4 ms the identifier is free again. -/
theorem test_withhold :
    after (.identifierWithholdExpiry 7)
      { early with mport := { early.mport with withheld := [⟨7, 0⟩] } }
      (fun t => t.mport.identFree 7) = true := by decide +kernel

/-- R152: a read's answer carries the addressed bytes. -/
theorem test_answer_read :
    after (.mPortAnswer 7 (.okay 0x443322))
      { early with
        mport := { early.mport with outstanding := [⟨7, ⟨.bypass 3 5, .read, 1, 2, 0, 0, 0⟩, 50⟩] } }
      (fun t => t.answers = [⟨3, 5, .okayData [0x33, 0x44]⟩]) = true := by decide +kernel

/-- Section 2.10: an allocation at the high-water mark drops epoch 5 and goes to position 1,059. -/
theorem test_drop :
    after (.mPortAnswer 7 (.okay 0)) (capturing (journaling [closed 5 100, opened 6 700] 1059 1059 100))
      (fun t => t.journal.head = 1060 ∧ t.journal.tail = 700 ∧ t.epoch.table = [opened 6 700] ∧
        t.events.queue = [⟨1, .checkpointDropped, 3, 5, 700, 600⟩]) = true := by decide +kernel

/-- Section 2.10: with the OPEN entry alone a PRESSURE seal is requested and the reserve used. -/
theorem test_pressure_seal :
    after (.mPortAnswer 7 (.okay 0)) (capturing (journaling [opened 9 2000] 2959 2959 2000))
      (fun t => t.journal.head = 2960 ∧ t.gate.state = .holdTracked ∧
        t.ops.slot = some ⟨.seal, .pressure, .gather, .empty, false, true⟩) = true := by decide +kernel

/-! ### Sealing and stopping -/

/-- Section 6.5: an expiry in an empty epoch is skipped and the countdown loaded again. -/
theorem test_timer_skip :
    after .epochTimerExpiry
      { journaling [closed 13 2700, opened 14 3000] 3000 3000 2700 with
        timer := ⟨2000, false, 2000, .running 0⟩ }
      (fun t => t.timer.countdown = .running 2000 ∧ t.ops.slot = none) = true := by decide +kernel

/-- Section 6.5: under EXTEND the expiry is owed. -/
theorem test_timer_owed :
    after .epochTimerExpiry
      { journaling [opened 14 3000] 3006 3006 3000 with timer := ⟨2000, true, 2000, .running 0⟩ }
      (fun t => t.timer.countdown = .stopped ∧ t.ops.owed.timer) = true := by decide +kernel

/-- Section 1.9: the second commit retires epoch 1 by age and moves tail to 40. -/
theorem test_commit :
    after .gatherEnd
      (inSlot .seal .command .gather true true (journaling [closed 1 0, opened 2 40] 65 65 0))
      (fun t => t.epoch = ⟨.journaling, 3, [closed 2 40, ⟨3, 65, .stillOpen, .usable, .command, 0⟩]⟩ ∧
        t.journal.tail = 40 ∧ t.mailbox.cmd = 0) = true := by decide +kernel

/-- Section 1.9: a commit in which every entry is LOST leaves the new entry alone and tail at head. -/
theorem test_commit_lost :
    after .gatherEnd
      (inSlot .seal .journalFault .gather false true
        (journaling [{ closed 2 40 with condition := .lost }, { opened 3 65 with condition := .lost }]
          77 77 40))
      (fun t => t.epoch.table = [⟨4, 77, .stillOpen, .usable, .journalFault, 0⟩] ∧ t.journal.tail = 77 ∧
        t.events.queue = [⟨1, .epochCommitted, 0, 3, 12, 0⟩]) = true := by decide +kernel

/-- R107: STOP in PASSTHROUGH is DONE at once. -/
theorem test_stop_passthrough :
    after .stop configured (fun t => t.mailbox.cmd = 0 ∧ t.ops.slot = none) = true := by decide +kernel

/-- Section 10.6, step 2: a SEAL command joins the running timer seal. -/
theorem test_seal_joins :
    after .seal (inSlot .seal .timer .gather false true early)
      (fun t => t.mailbox.cmd = 0x06 ∧ t.ops.slot = some ⟨.seal, .timer, .gather, .empty, true, true⟩) =
      true := by decide +kernel

/-- Section 10.6, step 3: a second command is refused with COMMAND_DONE (0x0C, BUSY). -/
theorem test_second_command :
    after .readRecord (inSlot .seal .timer .gather true true early)
      (fun t => t.mailbox.cmd = 0x06 ∧ t.events.queue = [⟨1, .commandDone, 0, 1, 0x030C, 1⟩]) = true := by
  decide +kernel

/-- Section 10.6, step 4: ABORT of a joined SEAL command is held. -/
theorem test_abort_held :
    after .abort (inSlot .seal .timer .gather true true early)
      (fun t => t.ops.abortPending ∧ t.ops.slot.isSome) = true := by decide +kernel

/-- Section 10.6, last paragraph: ABORT of a SEAL its command started gives the gate back. -/
theorem test_abort_honoured :
    after .abort
      { inSlot .seal .command .gather true true early with gate := ⟨.holdTracked, none, none⟩ }
      (fun t => t.gate.state = .pass ∧ t.mailbox.cmd = 0 ∧ t.epoch = early.epoch) = true := by
  decide +kernel

/-- R160: a value that is no command code is REJECTED with BAD_PARAM. -/
theorem test_invalid_code :
    after (.invalidCommandCode 0x55) early (fun t => t.mailbox.result = 0x550202) = true := by
  decide +kernel

/-! ### Rollback -/

/-- Section 7.10: the table before the command, its counter 32. -/
def threeEpochs : State := journaling [closed 30 1000, closed 31 1400, opened 32 1650] 1721 1721 1000

/-- Section 7.10: ROLLBACK to 31 takes the gate to HOLD_ALL. -/
theorem test_rollback :
    after .rollback (param 31 threeEpochs)
      (fun t => t.gate.state = .holdAll ∧ t.recovery = ⟨.inProgress, .command, .drain, 31, 0, 0, 0, 0, 0⟩) =
      true := by decide +kernel

/-- Section 7.10: RESTORE begins with 321 records at position 1,720. -/
theorem test_drain_end :
    after .drainEnd
      { inSlot .rollback .command .drain true true threeEpochs with
        engine := some ⟨31, 1400, none, ⟨.idle, .idle⟩, 0⟩ }
      (fun t => t.recovery.toRestore = 321 ∧ t.engine.any (·.walk == some 1720)) = true := by
  decide +kernel

/-- Section 7.10: the settle leaves (30, 1,000) and (33, 1,400, ROLLBACK). -/
theorem test_settle :
    after (.mPortAnswer 7 (.okay 0))
      (awaiting .restoreWrite (walking 31 1400 1400 (.got 0) (.got 0) 1 threeEpochs))
      (fun t => t.epoch.table = [closed 30 1000, ⟨33, 1400, .stillOpen, .usable, .rollback, 0⟩] ∧
        t.journal.head = 1400 ∧ t.gate.state = .pass) = true := by decide +kernel

/-- R178: an edge with faults disabled does nothing. -/
theorem test_fault_disabled :
    after .faultEdge early (fun t => t = { early with faultLevel := true }) = true := by decide +kernel

/-- Section 3.6: the fence removes entry b, answers it ERROR and keeps entry a. -/
theorem test_fault_fences :
    after .faultEdge
      { configured with
        policy := ⟨true, 0, 200⟩
        waq := [⟨{ txn .write 0x100 8 with requester := 2 }, .issued, false, false⟩,
          ⟨{ txn .write 0x100 8 with requester := 2, tag := 6 }, .waiting, false, false⟩] }
      (fun t => t.gate = ⟨.fence, none, some 20000⟩ ∧ t.answers = [⟨2, 6, .error⟩] ∧ t.waq.length = 1) =
      true := by decide +kernel

/-- Section 3.6: the fall of the line opens a fence that a RELEASE has armed. -/
theorem test_fault_fall :
    after .faultLevelFall
      { configured with gate := ⟨.fence, some .command, none⟩, faultLevel := true }
      (fun t => t.gate = ⟨.pass, none, none⟩ ∧ t.events.queue = [⟨1, .gateReleased, 0, 0, 1, 1⟩]) = true := by
  decide +kernel

/-- Section 3.6, the other order: the expiry opens the gate when the line is low. -/
theorem test_fence_timer :
    after .fenceReleaseTimerExpiry { configured with gate := ⟨.fence, none, some 0⟩ }
      (fun t => t.gate.state = .pass) = true := by decide +kernel

/-- Section 3.6: RELEASE under a high line sets the flag and the gate stays. -/
theorem test_release :
    after .release { configured with gate := ⟨.fence, none, some 100⟩, faultLevel := true }
      (fun t => t.gate = ⟨.fence, some .command, some 100⟩) = true := by decide +kernel

/-- Section 7.10: RECOVER shows the positions and returns to PASSTHROUGH. -/
theorem test_recover :
    after .recover
      { configured with
        epoch := ⟨.broken, 0, []⟩
        gate := ⟨.fence, none, none⟩
        journal := { configured.journal with head := 1721, written := 1721, tail := 1000 } }
      (fun t => t.epoch.mode = .passthrough ∧ t.gate.state = .fence ∧
        t.mailbox.result.extractLsb' 32 64 = 1721) = true := by decide +kernel

/-! ### Set-up, inspection and registers -/

/-- R20: base 0x10_0000_0000, capacity 1,024 and depth 2 are taken. -/
theorem test_set_journal :
    after .setJournal (param (0x1000000000 + 1024 * 2 ^ 64 + 2 * 2 ^ 96) State.reset)
      (fun t => t.journal = configured.journal) = true := by decide +kernel

/-- R44: a region that meets the journal area is refused with OVERLAP. -/
theorem test_set_region :
    after .setRegion
      (param (2 + 1 * 2 ^ 8 + 1 * 2 ^ 16 + 0x40000000 * 2 ^ 24 + 0x4000003F * 2 ^ 64) configured)
      (fun t => t.mailbox.result.extractLsb' 0 24 = 0x020302 ∧ t.regions = configured.regions) = true := by
  decide +kernel

/-- R164: FENCED unmapped mode, faults enabled at depth 1, 200 ms. -/
theorem test_set_policy :
    after .setPolicy (param (3 + 1 * 2 ^ 8 + 1 * 2 ^ 16 + 200 * 2 ^ 32) configured)
      (fun t => t.policy = ⟨true, 1, 200⟩ ∧ t.regions.activeUnmapped = .fenced) = true := by decide +kernel

/-- Section 1.9: START opens epoch 1 at 0. -/
theorem test_start :
    after .start configured
      (fun t => t.epoch = ⟨.journaling, 1, [⟨1, 0, .stillOpen, .usable, .start, 0⟩]⟩) = true := by
  decide +kernel

/-- R12, R62: a write that PASSTHROUGH made READY is decided again as epoch 1 opens: it misses the empty LTT,
asks for its capture and has no FORWARD request. -/
theorem test_start_redecides :
    after .start
      { holding .ready configured with
        mport := { configured.mport with waiting := [⟨.waq 3 5, .write, 4096, 8, 0xFF, 7, 0⟩] } }
      (fun t => t.waq.map (·.state) = [.capturing] ∧ t.mport.waitingOwners = [.capture 3 5]) = true := by
  decide +kernel

/-- Section 8.5: VERIFY of 1,100 positions from 400. -/
theorem test_verify :
    after .verify (journaling [closed 50 400, closed 51 900, opened 52 1300] 1500 1500 400)
      (fun t => t.scan.any fun sc => sc.scanStart == 400 && sc.scanEnd == 1500) = true := by decide +kernel

/-- Section 8.5: a bad record at 950 makes entries 50 and 51 DAMAGED. -/
theorem test_damage :
    markDamaged 950 [closed 50 400, closed 51 900, opened 52 1300] =
      [{ closed 50 400 with condition := .damaged }, { closed 51 900 with condition := .damaged },
        opened 52 1300] := by decide +kernel

/-- 12.5: the count and the counter of READ_CHECKPOINTS. -/
theorem test_read_checkpoints :
    after .readCheckpoints (journaling [closed 39 5, opened 40 9] 9 9 5)
      (fun t => byteAt t.mailbox.result 4 = 2 ∧ byteAt t.mailbox.result 8 = 40 ∧
        byteAt t.mailbox.result 16 = 39 ∧ byteAt t.mailbox.result 36 = 40) = true := by decide +kernel

/-- Section 8.5: position 950 lies in [400, 1,530) and its two reads are asked for. -/
theorem test_read_record :
    after .readRecord (param 950 (journaling [closed 50 400, opened 52 1300] 1530 1530 400))
      (fun t => t.mport.waitingOwners = [.inspectImage, .inspectHeader] ∧ t.mailbox.cmd = 0x0C) = true := by
  decide +kernel

/-- Section 6.5: clearing EXTEND with timer-owed set starts the owed seal. -/
theorem test_timer_ctl :
    after (.timerCtlWrite [0xA0, 0x0F, 0, 0])
      { early with
        timer := ⟨2000, true, 2000, .stopped⟩
        ops := { early.ops with owed := ⟨true, false, false⟩ } }
      (fun t => t.timer.nextInterval = 4000 ∧ t.ops.owed = .empty ∧
        t.ops.slot = some ⟨.seal, .timer, .gather, .empty, false, true⟩) = true := by decide +kernel

/-- Section 11.7: the head is removed by its number, and a repeated acknowledgement ignored. -/
theorem test_ack :
    after (.eventAck [100, 0]) { early with events := crowded } (fun t => t.events.queue.length = 30) =
      true ∧
      after (.eventAck [99, 0]) { early with events := crowded } (fun t => t.events = crowded) = true := by
  decide +kernel

/-- R156: a write of the low byte leaves the high byte of ALERT_MASK. -/
theorem test_mask :
    after (.alertMaskWrite [0xFE]) early (fun t => t.events.alertMask = 0xFFFE) = true := by decide +kernel

/-- R157: a write to a read-only register is ignored. -/
theorem test_read_only :
    after (.registerWrite ⟨.sevenBit 0x2C, 0x06⟩ [1]) early
      (fun t => t.mailbox = early.mailbox ∧ t.i2c.index = 0x06) = true := by decide +kernel

/-- R155: with both ADDR pins low the part answers 0x2C, not 0x2D, not the general call and no 10-bit
address. -/
theorem test_acknowledges :
    early.acknowledges (.sevenBit 0x2C) = true ∧ early.acknowledges (.sevenBit 0x2D) = false ∧
      early.acknowledges (.sevenBit 0) = false ∧ early.acknowledges (.tenBit 0x2C) = false := by
  decide +kernel

/-- R155: a write to another address changes nothing. -/
theorem test_other_address :
    after (.registerWrite ⟨.sevenBit 0x2D, 0x05⟩ [1]) early (fun t => t = early) = true := by decide +kernel

/-- R156: a read starts at byte 0 of the register selected, here ALERT_MASK, each byte sent advances the
pointer, and bytes past the last read as zero. -/
theorem test_read_transaction :
    ({ early with i2c := ⟨false, false, 0x09, 9⟩ }.readTransaction (.sevenBit 0x2C) 3).map
        (fun r : List Byte × State => (r.1, r.2.i2c.pointer)) = some ([255, 255, 0], 3) := by
  decide +kernel

/-- R180, R133: RESET_N keeps the Last Recovery Record, INTERRUPTED. -/
theorem test_reset_n :
    after .resetNAssert { early with recovery := ⟨.inProgress, .command, .restore, 31, 0, 321, 150, 0, 0⟩ }
      (fun t => t.recovery = ⟨.interrupted, .command, .restore, 31, 0, 321, 150, 0, 0⟩ ∧
        t.epoch = State.reset.epoch) = true := by decide +kernel

/-- R133: power-on reset clears the record. -/
theorem test_power_on :
    after .powerOnReset { early with recovery := ⟨.completed, .fault, .settle, 1, 2, 3, 3, 0, 0⟩ }
      (fun t => t.recovery = .cleared ∧ t.resetPhase = .powerOn false) = true := by decide +kernel

/-- R155: the address with ADDR0 high is 0x2D. -/
theorem test_reset_ends :
    after (.resetNEnd false true false) { early with resetPhase := .resetN }
      (fun t => t.i2c.address = 0x2D) = true ∧
      after (.powerOnResetEnd false true true) { early with resetPhase := .powerOn false }
        (fun t => t.faultLevel && t.resetPhase == .running) = true := by decide +kernel

/-- R180: while RESET_N stays asserted the part holds its values, so a power-on reset that ends first does not
set it running, and one that begins while the line is low keeps the line's level. -/
theorem test_reset_n_stays_low :
    after (.powerOnResetEnd false false false) { early with resetPhase := .powerOn true }
      (fun t => t.resetPhase = .resetN) = true ∧
      after .powerOnReset { early with resetPhase := .resetN } (fun t => t.resetPhase = .powerOn true) =
        true := by decide +kernel

/-! ### Witnesses

Each theorem shows, for the statement it names, states and operands that meet the hypotheses of each of
its clauses, at the boundary where a clause has one. -/

theorem witness_StepRunsTheCommandInFront :
    ({ early with pending := [.seal, .stop] } : State).pending = .seal :: [.stop] := rfl

theorem witness_AnIdleStepIsOneTick :
    let s : State :=
      { early with timer := ⟨1, false, 1, .running 1⟩, gate := ⟨.fence, none, some 1⟩ }
    s.resetPhase = .running ∧ s.pending = [] := by decide +kernel

theorem witness_ResetsGiveTheResetValues :
    early.resetPhase = .running ∧ ({ early with resetPhase := .resetN } : State).resetPhase = .resetN ∧
      ({ early with resetPhase := .powerOn false } : State).resetPhase = .powerOn false := by decide +kernel

theorem witness_AResetEnds :
    ({ early with resetPhase := .resetN } : State).resetPhase = .resetN ∧
      ({ early with resetPhase := .powerOn false } : State).resetPhase = .powerOn false ∧
      ({ early with resetPhase := .powerOn true } : State).resetPhase = .powerOn true ∧
      early.resetPhase = .running := by decide +kernel

theorem witness_AHeldPartTakesNoStep :
    ({ early with resetPhase := .resetN } : State).resetPhase ≠ .running ∧
      ({ early with resetPhase := .resetN } : State).pending = [] ∧ Instr.seal ≠ .powerOnReset ∧
      Instr.seal ≠ .resetNAssert ∧
      (∀ a b f, Instr.seal ≠ .resetNEnd a b f) ∧ ∀ a b f, Instr.seal ≠ .powerOnResetEnd a b f := by
  decide +kernel

/-- A part whose WAQ holds 32 entries. -/
def fullWaq : State :=
  { early with
    waq := (List.range 32).map fun i =>
      ⟨{ txn .write 64 8 with requester := BitVec.ofNat 4 i, tag := BitVec.ofNat 6 (i / 16) }, .waiting,
        false, false⟩ }

theorem witness_BackPressureHoldsOff :
    let held : State := { early with gate := ⟨.holdAll, none, none⟩ }
    (held.resetPhase = .running ∧ held.gate.state = .holdAll) ∧
      fullWaq.resetPhase = .running ∧ fullWaq.gate.state ≠ .fence ∧ 32 ≤ fullWaq.waq.length := by
  decide +kernel

/-- A transaction of two bytes that starts at the last byte of its line. -/
def crossing : Transaction := { txn .read 64 2 with addr := 64 * 64 + 63 }

theorem witness_ARefusalAtAcceptance :
    let fenced : State := { early with gate := ⟨.fence, none, none⟩ }
    (fenced.resetPhase = .running ∧ fenced.gate.state = .fence) ∧
      (early.resetPhase = .running ∧ early.gate.state ≠ .holdAll ∧ early.waq.length < 32 ∧
        (txn .write 64 0).size < 1) ∧
      64 < offsetOf crossing.addr + crossing.size ∧
      (holding .ready early).gate.state ≠ .holdAll ∧ (holding .ready early).waq.length < 32 ∧
      (holding .ready early).tagInUse 3 5 = true := by decide +kernel

theorem witness_AReadPassesTheWaq :
    let t := txn .read 64 64
    early.resetPhase = .running ∧ (early.gate.state = .pass ∨ early.gate.state = .holdTracked) ∧
      early.waq.length < 32 ∧ 1 ≤ t.size ∧ offsetOf t.addr + t.size ≤ 64 ∧
      early.tagInUse t.requester t.tag = false ∧ t.kind = .read ∧ (∀ e ∈ early.waq, e.line ≠ t.line) ∧
      early.capturesGranted := by unfold State.capturesGranted; decide +kernel

/-- A part with sixteen captures being read for lines that no write of these tests names. -/
def sixteen : State :=
  { early with captures := List.replicate 16 ⟨5, 9, 9, .reading⟩ }

/-- The hypotheses that the clauses of `AHeadWriteIsDecided` share. -/
def headWrite (s : State) (t : Transaction) : Prop :=
  s.resetPhase = .running ∧
    (s.gate.state = .pass ∨ (s.gate.state = .holdTracked ∧ s.decodeLine t.line ≠ .tracked)) ∧
    s.waq.length < 32 ∧ 1 ≤ t.size ∧ offsetOf t.addr + t.size ≤ 64 ∧
    s.tagInUse t.requester t.tag = false ∧ t.kind = .write ∧
    (∀ e ∈ s.waq, e.line = t.line → e.state = .issued) ∧ s.headsDecided ∧ s.capturesGranted

/-- A part that tracks the line of the write. -/
def tracked64 : State := { early with ltt := [64] }

/-- A part whose WAQ holds an issued write of the line. -/
def behind64 : State :=
  { early with waq := [⟨{ txn .write 64 8 with tag := 6 }, .issued, false, false⟩] }

theorem witness_AHeadWriteIsDecided_fenced :
    headWrite early (txn .write 0x4000 8) ∧ early.decodeLine (txn .write 0x4000 8).line = .fenced := by
  unfold headWrite State.headsDecided State.capturesGranted
  decide +kernel

theorem witness_AHeadWriteIsDecided_untracked :
    headWrite early (txn .write 0x20 8) ∧ early.decodeLine (txn .write 0x20 8).line = .untracked := by
  unfold headWrite State.headsDecided State.capturesGranted
  decide +kernel

theorem witness_AHeadWriteIsDecided_notJournaling :
    headWrite configured (txn .write 64 8) ∧
      configured.decodeLine (txn .write 64 8).line = .tracked ∧ configured.epoch.mode ≠ .journaling := by
  unfold headWrite State.headsDecided State.capturesGranted
  decide +kernel

theorem witness_AHeadWriteIsDecided_hit :
    headWrite tracked64 (txn .write 64 8) ∧ tracked64.decodeLine (txn .write 64 8).line = .tracked ∧
      (txn .write 64 8).line ∈ tracked64.ltt := by
  unfold headWrite State.headsDecided State.capturesGranted
  decide +kernel

theorem witness_AHeadWriteIsDecided_capture :
    headWrite behind64 (txn .write 64 8) ∧ behind64.decodeLine (txn .write 64 8).line = .tracked ∧
      behind64.epoch.mode = .journaling ∧ (txn .write 64 8).line ∉ behind64.ltt ∧
      behind64.captures.length < 16 := by
  unfold headWrite State.headsDecided State.capturesGranted
  decide +kernel

theorem witness_AHeadWriteIsDecided_waiting :
    headWrite sixteen (txn .write 64 8) ∧ sixteen.decodeLine (txn .write 64 8).line = .tracked ∧
      sixteen.epoch.mode = .journaling ∧ (txn .write 64 8).line ∉ sixteen.ltt ∧
      16 ≤ sixteen.captures.length := by
  unfold headWrite State.headsDecided State.capturesGranted
  decide +kernel

/-- The hypotheses that the clauses of `ATransactionJoinsItsChain` share. -/
def joiner (s : State) (t : Transaction) : Prop :=
  s.resetPhase = .running ∧ (s.gate.state = .pass ∨ s.gate.state = .holdTracked) ∧ s.waq.length < 32 ∧
    1 ≤ t.size ∧ offsetOf t.addr + t.size ≤ 64 ∧ s.tagInUse t.requester t.tag = false ∧
    s.headsDecided ∧ s.capturesGranted

/-- The same line, another tag. -/
def later (kind : Access) : Transaction := { txn kind 64 8 with tag := 6 }

theorem witness_ATransactionJoinsItsChain :
    let held : State := { early with gate := ⟨.holdTracked, none, none⟩ }
    (joiner held (txn .write 64 8) ∧ (txn .write 64 8).kind = .write ∧
        held.gate.state = .holdTracked ∧ held.decodeLine (txn .write 64 8).line = .tracked) ∧
      (joiner (holding .ready early) (later .write) ∧
        (∃ e ∈ (holding .ready early).waq, e.line = (later .write).line ∧ e.state ≠ .issued) ∧
        (holding .ready early).gate.state = .pass) ∧
      joiner (holding .issued early) (later .read) ∧ (later .read).kind = .read ∧
      (∃ e ∈ (holding .issued early).waq, e.line = (later .read).line) ∧
      ∀ e ∈ (holding .issued early).waq, e.line = (later .read).line → e.state = .issued := by
  unfold joiner State.headsDecided State.capturesGranted
  decide +kernel

/-- A part with 63 of the 64 slots taken and requests of every class waiting. -/
def loaded : State :=
  { early with
    mport := { contended with
      outstanding := (List.range 63).map fun i =>
        ⟨BitVec.ofNat 8 (i + 100), ⟨.abandoned, .read, 0, 64, 0, 0, 0⟩, 50⟩ } }

theorem witness_TheArbiterGrants :
    (early.resetPhase = .running ∧ early.mport.waiting = []) ∧ loaded.resetPhase = .running ∧
      loaded.mport.outstanding.length < 64 ∧ loaded.mport.identFree 7 = true ∧
      loaded.mport.waiting ≠ [] ∧ (loaded.mport.waiting.Pairwise fun x y => x.joined ≤ y.joined) ∧
      loaded.capturesGranted := by
  unfold State.capturesGranted
  decide +kernel

/-- The same line, another tag. -/
def next' (kind : Access) (line : Nat) : WaqEntry := ⟨{ txn kind line 8 with tag := 6 }, .waiting, false, false⟩

/-- A READY write of a line, its request the one that waits, and this entry of the line behind it. -/
def chained (kind : Access) (line : Nat) (s : State) : State :=
  { s with
    waq := [⟨txn .write line 8, .ready, false, false⟩, next' kind line]
    mport := { s.mport with waiting := [⟨.waq 3 5, .write, 0, 8, 0xFF, 7, 0⟩] } }

/-- The hypotheses of `TheArbiterGrants` on a WAQ request. -/
def grantsEntry (s : State) (x : WaqEntry) : Prop :=
  s.resetPhase = .running ∧ s.mport.outstanding.length < 64 ∧ s.mport.identFree 9 = true ∧
    s.mport.waiting ≠ [] ∧ (s.mport.waiting.Pairwise fun x y => x.joined ≤ y.joined) ∧
    s.capturesGranted ∧ s.waqEntry 3 5 = some x ∧ s.headsDecided ∧ (s.waq.map WaqEntry.key).Nodup

/-- What the grant makes the head of its chain. -/
def nextOfChain (s : State) (e : WaqEntry) : Prop :=
  ∃ x, grantsEntry s x ∧ s.waq = [x] ++ e :: [] ∧ e.state = .waiting ∧ e.line = x.line ∧
    ∀ y ∈ [x], y.line = e.line → y.key = (3, 5) ∨ y.state = .issued

theorem nextOfChain_chained (kind : Access) (line : Nat) (s : State) (h : grantsEntry (chained kind line s)
    ⟨txn .write line 8, .ready, false, false⟩) : nextOfChain (chained kind line s) (next' kind line) :=
  ⟨_, h, rfl, rfl, rfl, fun y hy _ => .inl (by cases List.mem_singleton.mp hy; rfl)⟩

/-- A read; a write of a FENCED, of an UNTRACKED and of a TRACKED line, outside JOURNALING, with a free Capture
Buffer entry and without one. -/
theorem witness_TheArbiterGrants_next :
    nextOfChain (chained .read 64 early) (next' .read 64) ∧
      (nextOfChain (chained .write 0x4000 early) (next' .write 0x4000) ∧
        early.decodeLine (next' .write 0x4000).line = .fenced) ∧
      (nextOfChain (chained .write 0x20 early) (next' .write 0x20) ∧
        early.decodeLine (next' .write 0x20).line = .untracked) ∧
      (nextOfChain (chained .write 64 configured) (next' .write 64) ∧
        configured.decodeLine (next' .write 64).line = .tracked ∧ configured.epoch.mode ≠ .journaling) ∧
      (nextOfChain (chained .write 64 early) (next' .write 64) ∧
        early.decodeLine (next' .write 64).line = .tracked ∧ (next' .write 64).line ∉ early.ltt ∧
        early.captures.length < 16) ∧
      nextOfChain (chained .write 64 sixteen) (next' .write 64) ∧ 16 ≤ sixteen.captures.length := by
  refine ⟨nextOfChain_chained _ _ _ ?_, ⟨nextOfChain_chained _ _ _ ?_, ?_⟩,
    ⟨nextOfChain_chained _ _ _ ?_, ?_⟩, ⟨nextOfChain_chained _ _ _ ?_, ?_⟩,
    ⟨nextOfChain_chained _ _ _ ?_, ?_⟩, nextOfChain_chained _ _ _ ?_, ?_⟩ <;>
    (try unfold grantsEntry State.headsDecided State.capturesGranted) <;> decide +kernel

/-- No entry behind the granted one heads its chain. -/
theorem witness_TheArbiterGrants_last :
    let s : State :=
      { holding .ready early with mport := (chained .read 64 early).mport }
    grantsEntry s ⟨txn .write 64 8, .ready, false, false⟩ ∧
      ∀ pre e post, s.waq = pre ++ e :: post → e.state = .waiting → e.line = (txn .write 64 8).line →
        ∃ y ∈ pre, y.line = e.line ∧ y.key ≠ (3, 5) ∧ y.state ≠ .issued := by
  refine ⟨?_, ?_⟩
  · unfold grantsEntry State.headsDecided State.capturesGranted
    decide +kernel
  · intro pre e post h hw _
    cases pre with
    | nil => cases h; cases hw
    | cons y pre => cases pre <;> cases h

theorem witness_AForwardRequestEnds :
    let bypass := awaiting (.bypass 3 5) early
    let issued := awaiting (.waq 3 5) (holding .issued early)
    (bypass.resetPhase = .running ∧
        bypass.mport.outstandingOf 7 = some ⟨.bypass 3 5, .read, 0, 64, 0, 0, 0⟩ ∧
        bypass.capturesGranted) ∧
      issued.resetPhase = .running ∧
      issued.mport.outstandingOf 7 = some ⟨.waq 3 5, .read, 0, 64, 0, 0, 0⟩ ∧ issued.capturesGranted := by
  unfold State.capturesGranted
  decide +kernel

theorem witness_LateAnswersAreDiscarded :
    let s : State := { early with mport := { early.mport with withheld := [⟨7, 400⟩] } }
    s.resetPhase = .running ∧ s.mport.outstandingOf 7 = none := by decide +kernel

/-- A request of `awaiting`. -/
def asked (o : Owner) : Request := ⟨o, .read, 0, 64, 0, 0, 0⟩

/-- The request of identifier 7 may fail by an ERROR answer and by its timeout. -/
def failsBothWays (s : State) : Prop :=
  s.requestEnds 7 .error (.mPortAnswer 7 .error) s.mport.withheld ∧
    s.requestEnds 7 .error (.responseTimeout 7) (s.mport.withheld ++ [⟨7, 400⟩])

theorem failsBothWays_any (s : State) : failsBothWays s := ⟨.inl ⟨rfl, rfl⟩, .inr ⟨rfl, rfl, rfl⟩⟩

theorem witness_AFailedCaptureRefusesItsWrite :
    let s := capturing early
    let m : State := { s with waq := [⟨txn .write 64 8, .capturing, true, false⟩] }
    (s.resetPhase = .running ∧ s.mport.outstandingOf 7 = some (asked (.capture 3 5)) ∧
        s.waqEntry 3 5 = some ⟨txn .write 64 8, .capturing, false, false⟩ ∧ failsBothWays s) ∧
      m.resetPhase = .running ∧ m.mport.outstandingOf 7 = some (asked (.capture 3 5)) ∧
      m.waqEntry 3 5 = some ⟨txn .write 64 8, .capturing, true, false⟩ ∧
      m.requestEnds 7 (.okay 9) (.mPortAnswer 7 (.okay 9)) m.mport.withheld := by
  unfold failsBothWays State.requestEnds
  decide +kernel

/-- One record below the high-water mark after the allocation. -/
theorem witness_AnAllocationPlacesARecord :
    let s := capturing (journaling [opened 1 0] 958 958 0)
    s.resetPhase = .running ∧ s.mport.outstandingOf 7 = some (asked (.capture 3 5)) ∧
      s.waqEntry 3 5 = some ⟨txn .write 64 8, .capturing, false, false⟩ ∧ (txn .write 64 8).kind = .write ∧
      s.journal.head + 1 - s.journal.tail + 64 < s.journal.capacity ∧
      (∀ w, s.engine = some w → targetHolds w.targetEpoch s.epoch.table = true) ∧
      (∀ c ∈ s.captures, c.holds s.journal.head = false) ∧ s.capturesGranted := by
  refine ⟨rfl, by decide +kernel, by decide +kernel, rfl, by decide +kernel, ?_, by decide +kernel, ?_⟩
  · intro w h; cases h
  · unfold State.capturesGranted; decide +kernel

/-- The hypotheses on an allocation under pressure that drops these entries first. -/
def pressed (s : State) (gone : List Checkpoint) (d : Checkpoint) (rest : List Checkpoint) : Prop :=
  s.resetPhase = .running ∧ s.mport.outstandingOf 7 = some (asked (.capture 3 5)) ∧
    s.waqEntry 3 5 = some ⟨txn .write 64 8, .capturing, false, false⟩ ∧ (txn .write 64 8).kind = .write ∧
    s.epoch.mode = .journaling ∧ s.epoch.table = gone ++ d :: rest ∧ (∀ c ∈ gone, c.state = .committed) ∧
    s.pressedAt s.journal.tail ∧ (∀ c ∈ gone.tail, s.pressedAt c.start) ∧
    (∀ x ∈ s.captures, x.holds s.journal.head = false) ∧ s.capturesGranted

/-- A fault rollback to this epoch in DRAIN. -/
def faultDrain (target start : Nat) (s : State) : State :=
  { inSlot .rollback .fault .drain false false s with
    gate := ⟨.fence, none, none⟩, engine := some ⟨target, start, none, ⟨.idle, .idle⟩, 0⟩ }

/-- At the high-water mark before the drops, one record below it after: one drop, two, and two that remove the
target of a rollback in DRAIN. -/
theorem witness_PressureDropsTheOldestCheckpoint :
    let one := capturing (journaling [closed 5 0, opened 6 1] 959 959 0)
    let two := capturing (journaling [closed 5 0, closed 6 0, opened 7 1] 959 959 0)
    (pressed one [closed 5 0] (opened 6 1) [] ∧ ¬one.pressedAt (opened 6 1).start) ∧
      (pressed two [closed 5 0, closed 6 0] (opened 7 1) [] ∧ ¬two.pressedAt (opened 7 1).start) ∧
      pressed (faultDrain 6 0 two) [closed 5 0, closed 6 0] (opened 7 1) [] ∧
      targetHolds 6 [opened 7 1] = false := by
  unfold pressed State.capturesGranted State.pressedAt
  refine ⟨⟨?_, ?_⟩, ⟨?_, ?_⟩, ?_, ?_⟩ <;> decide +kernel

/-- The OPEN entry behind these, `n` records from full occupancy, a capture being read. -/
def nearFull (gone : List Checkpoint) (n : Nat) : State :=
  capturing (journaling (gone ++ [opened 9 2000]) (3024 - n) (3024 - n) 2000)

/-- An allocation that drops these entries and is still under pressure. -/
def stillPressed (gone : List Checkpoint) (n : Nat) (slot : State → State) : Prop :=
  pressed (slot (nearFull gone n)) gone (opened 9 2000) [] ∧
    (∀ c ∈ (gone ++ [opened 9 2000]).tail, (slot (nearFull gone n)).pressedAt c.start) ∧
    ((slot (nearFull gone n)).ops.holds .verify = true → (slot (nearFull gone n)).scan.isSome = true)

/-- The first and the last record of the reserve and the full journal, with no drop and with one: on an idle
slot, on a SEAL and a STOP, behind a rollback in DRAIN whose target stays and whose target is dropped, and in
place of VERIFY. The occupancies stand in the last clause. -/
theorem witness_TheReserveAndTheFullJournal :
    let verify := scanning ⟨2000, 2960, 2000, 0, 0, 0, 0, 0, ⟨.asking 1, .asking 1⟩⟩
    let both (gone : List Checkpoint) (slot : State → State) : Prop :=
      stillPressed gone 1 slot ∧ stillPressed gone 0 slot
    stillPressed [] 65 id ∧ both [] id ∧ both [closed 8 2000] id ∧
      both [] (inSlot .seal .command .gather true true) ∧
      both [] (inSlot .stop .command .gather true true) ∧ both [] (faultDrain 9 2000) ∧
      both [closed 8 2000] (faultDrain 8 2000) ∧ both [] verify ∧
      targetHolds 9 [opened 9 2000] = true ∧ targetHolds 8 [opened 9 2000] = false ∧
      (nearFull [] 0).journal.head = 2000 + (nearFull [] 0).journal.capacity ∧
      (nearFull [] 1).journal.head - 2000 < (nearFull [] 1).journal.capacity := by
  refine ⟨?_, ⟨?_, ?_⟩, ⟨?_, ?_⟩, ⟨?_, ?_⟩, ⟨?_, ?_⟩, ⟨?_, ?_⟩, ⟨?_, ?_⟩, ⟨?_, ?_⟩, ?_⟩ <;>
    (try unfold stillPressed pressed State.capturesGranted State.pressedAt) <;> decide +kernel

/-- The hypotheses on a record line that is being written. -/
def lineWritten (s : State) (p n : Nat) (line : RecordLine) : Prop :=
  s.resetPhase = .running ∧
    s.mport.outstandingOf 7 =
      some (asked (match line with | .image => .journalImage p | .header => .journalHeader p)) ∧
    s.captures.find? (·.holds p) = some ⟨64, 3, 5, .writing (recordAt p) line n⟩ ∧
    (recordAt p).position = p ∧ s.capturesGranted

theorem witness_TheHeaderFollowsTheImage :
    lineWritten (writing 9 .image 1 (journaling [opened 1 0] 10 9 0)) 9 1 .image := by
  unfold lineWritten State.capturesGranted
  decide +kernel

theorem witness_WrittenPassesTheEndedRecords :
    lineWritten (writing 9 .header 3 (journaling [opened 1 0] 10 9 0)) 9 3 .header := by
  unfold lineWritten State.capturesGranted
  decide +kernel

/-- A second attempt, and the third of a header on an idle slot, on a SEAL and a STOP, in a command rollback's
DRAIN and in place of VERIFY. -/
theorem witness_ALineWriteIsTriedThreeTimes :
    let second := writing 9 .image 2 (journaling [opened 1 0] 10 9 0)
    let third (slot : State → State) : Prop :=
      let s := slot (writing 64 .header 3 twoEpochs)
      lineWritten s 64 3 .header ∧ failsBothWays s ∧ s.epoch.mode = .journaling ∧
        (s.ops.holds .verify = true → s.scan.isSome = true)
    (lineWritten second 9 2 .image ∧ failsBothWays second) ∧
      third id ∧ third (inSlot .seal .command .gather true true) ∧
      third (inSlot .stop .command .gather true true) ∧
      (third draining ∧
        (draining twoEpochs).ops.slot = some ⟨.rollback, .command, .drain, .empty, true, true⟩ ∧
        (draining twoEpochs).engine = some ⟨2, 40, none, ⟨.idle, .idle⟩, 0⟩) ∧
      third (scanning scan63) := by
  unfold lineWritten State.capturesGranted failsBothWays State.requestEnds
  refine ⟨?_, ?_, ?_, ?_, ?_, ?_⟩ <;> decide +kernel

/-- A countdown at its end. -/
def expiring (extend : Bool) (s : State) : State :=
  { s with timer := ⟨2000, extend, 2000, .running 0⟩ }

/-- The hypotheses that the clauses of `TheEpochTimerExpires` share. -/
def expires (s : State) : Prop :=
  s.resetPhase = .running ∧ s.timer.countdown = .running 0 ∧ s.epoch.table.getLast? = some (opened 1 0)

theorem witness_TheEpochTimerExpires :
    let busy (op : Operation) := inSlot op .command .gather true true (expiring false early)
    let verify := scanning scan63 (expiring false early)
    (expires (expiring false (journaling [opened 1 0] 0 0 0)) ∧
        (opened 1 0).start = (journaling [opened 1 0] 0 0 0).journal.head) ∧
      (expires (expiring true early) ∧ (opened 1 0).start ≠ early.journal.head ∧
        (expiring true early).timer.extend = true) ∧
      (expires (expiring false early) ∧ (expiring false early).timer.extend = false ∧
        (expiring false early).epoch.mode = .journaling ∧ (expiring false early).ops.slot = none) ∧
      (expires (busy .seal) ∧
        (busy .seal).ops.slot = some ⟨.seal, .command, .gather, .empty, true, true⟩) ∧
      (expires (busy .stop) ∧
        (busy .stop).ops.slot = some ⟨.stop, .command, .gather, .empty, true, true⟩) ∧
      expires verify ∧ verify.ops.slot = some ⟨.verify, .command, .scan, .empty, true, false⟩ ∧
      verify.scan = some scan63 := by
  unfold expires
  decide +kernel

/-- A BROKEN part. -/
def brokenPart : State := { configured with epoch := ⟨.broken, 0, []⟩, gate := ⟨.fence, none, none⟩ }

/-- The part runs and no command does. -/
def ready (s : State) : Prop := s.resetPhase = .running ∧ s.mailbox.cmd = 0

theorem witness_TheSealAndStopCommands :
    let sealing := inSlot .seal .timer .gather false true early
    let rollback := inSlot .rollback .fault .drain false false early
    let stopping := inSlot .stop .command .gather false true early
    (ready configured ∧ configured.epoch.mode = .passthrough) ∧
      (ready brokenPart ∧ brokenPart.epoch.mode = .broken) ∧
      (ready early ∧ early.epoch.mode = .journaling ∧ early.ops.slot = none) ∧
      (ready sealing ∧ sealing.epoch.mode = .journaling ∧
        sealing.ops.slot = some ⟨.seal, .timer, .gather, .empty, false, true⟩) ∧
      (ready rollback ∧ rollback.epoch.mode = .journaling ∧
        rollback.ops.slot = some ⟨.rollback, .fault, .drain, .empty, false, false⟩) ∧
      ready stopping ∧ stopping.epoch.mode = .journaling ∧
      stopping.ops.slot = some ⟨.stop, .command, .gather, .empty, false, true⟩ := by
  unfold ready
  decide +kernel

theorem twoEpochs_tableOk (s : State) (h : s.epoch.table = twoEpochs.epoch.table)
    (hc : s.epoch.counter = twoEpochs.epoch.counter) (hj : s.journal = twoEpochs.journal) : s.TableOk := by
  unfold State.TableOk
  rw [h, hc, hj]
  exact ⟨by decide +kernel, by decide +kernel, by decide +kernel, by decide +kernel, by decide +kernel,
    by decide +kernel⟩

theorem witness_ASealCommits :
    let s := inSlot .seal .command .gather true true (holding .ready twoEpochs)
    s.resetPhase = .running ∧ s.ops.slot = some ⟨.seal, .command, .gather, .empty, true, true⟩ ∧
      GatherEnded s ∧ s.epoch.counter < 2 ^ 48 - 1 ∧ s.epoch.table.getLast? = some (opened 2 40) ∧
      s.TableOk ∧ s.epoch.mode = .journaling ∧ (s.waq.map WaqEntry.key).Nodup ∧
      ∃ e ∈ s.waq, e.txn.kind = .write ∧ e.state = .ready := by
  refine ⟨rfl, rfl, ?_, by decide +kernel, by decide +kernel, twoEpochs_tableOk _ rfl rfl rfl, rfl,
    by decide +kernel, by decide +kernel⟩
  unfold GatherEnded
  decide +kernel

theorem witness_ASealEndsAtTheEpochLimit :
    let s := inSlot .seal .command .gather true true (journaling [opened (2 ^ 48 - 1) 0] 10 10 0)
    s.resetPhase = .running ∧ s.ops.slot = some ⟨.seal, .command, .gather, .empty, true, true⟩ ∧
      GatherEnded s ∧ s.epoch.counter = 2 ^ 48 - 1 := by
  unfold GatherEnded
  decide +kernel

theorem witness_AStopDiscards :
    let s := inSlot .stop .command .gather true true twoEpochs
    s.resetPhase = .running ∧ s.ops.slot = some ⟨.stop, .command, .gather, .empty, true, true⟩ ∧
      GatherEnded s := by
  unfold GatherEnded
  decide +kernel

/-- The hypotheses that the clauses of `TheAbortCommand` on an abortable operation share. -/
def aborting (s : State) (sl : Slot) : Prop :=
  s.resetPhase = .running ∧ s.mailbox.cmd ≠ 0 ∧ s.ops.abortPending = false ∧ s.ops.slot = some sl ∧
    sl.command = true ∧ s.epoch.mode = .journaling

theorem witness_TheAbortCommand_held :
    let reading : State :=
      { early with
        mailbox := { early.mailbox with cmd := 0x0C }, inspect := some ⟨5, ⟨.asking 1, .asking 1⟩⟩ }
    let joined := inSlot .seal .timer .gather true true early
    (early.resetPhase = .running ∧ early.mailbox.cmd = 0) ∧
      (reading.resetPhase = .running ∧ reading.mailbox.cmd ≠ 0 ∧ reading.ops.abortPending = false ∧
        reading.ops.slot = none) ∧
      joined.resetPhase = .running ∧ joined.mailbox.cmd ≠ 0 ∧ joined.ops.abortPending = false ∧
      joined.ops.slot = some ⟨.seal, .timer, .gather, .empty, true, true⟩ := by decide +kernel

/-- A SEAL that a timer request has joined, a STOP behind which one is owed, a command rollback in DRAIN
and a VERIFY. -/
theorem witness_TheAbortCommand :
    let joined : Slot := ⟨.seal, .command, .gather, ⟨true, false, false⟩, true, true⟩
    let own : State :=
      { inSlot .seal .command .gather true true early with ops := ⟨some joined, .empty, false⟩ }
    let stop : State :=
      { inSlot .stop .command .gather true true early with
        ops := ⟨some ⟨.stop, .command, .gather, .empty, true, true⟩, ⟨true, false, false⟩, false⟩ }
    (aborting own joined ∧ joined.operation = .seal ∧ joined.source = .command) ∧
      aborting stop ⟨.stop, .command, .gather, .empty, true, true⟩ ∧
      aborting (draining twoEpochs) ⟨.rollback, .command, .drain, .empty, true, true⟩ ∧
      aborting (scanning scan63 twoEpochs) ⟨.verify, .command, .scan, .empty, true, false⟩ ∧
      (scanning scan63 twoEpochs).scan = some scan63 := by
  unfold aborting
  decide +kernel

theorem witness_DrainEndsInRestore :
    let s := draining twoEpochs
    let r := draining (holding .ready twoEpochs)
    let sl : Slot := ⟨.rollback, .command, .drain, .empty, true, true⟩
    (r.resetPhase = .running ∧ r.ops.slot = some sl ∧ r.engine = some ⟨2, 40, none, ⟨.idle, .idle⟩, 0⟩ ∧
        r.drainDone = false) ∧
      s.resetPhase = .running ∧ s.ops.slot = some sl ∧ s.engine = some ⟨2, 40, none, ⟨.idle, .idle⟩, 0⟩ ∧
      s.drainDone = true ∧ s.journal.head ≠ 40 := by decide +kernel

/-- The header line of the record of epoch 2 at 64: line 64, requester 3, flags 0, an image of zeros. -/
def goodHeader : Line := 287857043615455397634491368224399032322

/-- The walk at 64 with the image read, waiting for the header read. -/
def reading64 : State :=
  awaiting .restoreHeader (walking 2 40 64 (.got 0) (.asking 3) 0 twoEpochs)

/-- The walk at `p` with its restore write outstanding in its third attempt. -/
def restoring (p : Nat) : State :=
  awaiting .restoreWrite (walking 2 40 p (.got 0) (.got goodHeader) 3 twoEpochs)

/-- The slot of these walks. -/
def walkSlot : Slot := ⟨.rollback, .command, .restore, .empty, true, true⟩

theorem witness_TheWalkRestoresOneRecordAtATime :
    (reading64.resetPhase = .running ∧ reading64.mport.outstandingOf 7 = some (asked .restoreHeader) ∧
        reading64.ops.slot = some walkSlot ∧
        reading64.engine = some ⟨2, 40, some 64, ⟨.got 0, .asking 3⟩, 0⟩ ∧ reading64.capturesGranted ∧
        recordPasses 64 (reading64.expectedEpoch 64) 0 (lineHeader goodHeader) = true) ∧
      (restoring 41).resetPhase = .running ∧
      (restoring 41).mport.outstandingOf 7 = some (asked .restoreWrite) ∧
      (restoring 41).ops.slot = some walkSlot ∧
      (restoring 41).engine = some ⟨2, 40, some 41, ⟨.got 0, .got goodHeader⟩, 3⟩ ∧
      (restoring 41).capturesGranted ∧ (41 : Nat) ≠ 40 := by
  unfold State.capturesGranted
  refine ⟨⟨rfl, rfl, rfl, rfl, by decide +kernel, by decide +kernel⟩, rfl, rfl, rfl, rfl, by decide +kernel,
    by decide +kernel⟩

/-- The clauses on requests that do not end the record: a read in its second attempt and a write in its second,
each failing by an ERROR and by a timeout; and the first of the two reads to be answered OKAY. -/
theorem witness_TheWalkRestoresOneRecordAtATime_again :
    let read := awaiting .restoreHeader (walking 2 40 64 (.got 0) (.asking 2) 0 twoEpochs)
    let first := awaiting .restoreImage (walking 2 40 64 (.asking 3) (.asking 1) 0 twoEpochs)
    let write := awaiting .restoreWrite (walking 2 40 41 (.got 0) (.got goodHeader) 2 twoEpochs)
    (read.mport.outstandingOf 7 = some (asked .restoreHeader) ∧ failsBothWays read ∧
        read.engine = some ⟨2, 40, some 64, ⟨.got 0, .asking 2⟩, 0⟩ ∧
        (⟨.got 0, .asking 2⟩ : ReadPair).failsEarly .header .error 2) ∧
      (first.mport.outstandingOf 7 = some (asked .restoreImage) ∧
        first.requestEnds 7 (.okay 5) (.mPortAnswer 7 (.okay 5)) first.mport.withheld ∧
        first.engine = some ⟨2, 40, some 64, ⟨.asking 3, .asking 1⟩, 0⟩ ∧
        (⟨.asking 3, .asking 1⟩ : ReadPair).endsFirst .image (.okay 5) (.got 5)) ∧
      write.mport.outstandingOf 7 = some (asked .restoreWrite) ∧ failsBothWays write ∧
      write.engine = some ⟨2, 40, some 41, ⟨.got 0, .got goodHeader⟩, 2⟩ ∧
      read.resetPhase = .running ∧ first.resetPhase = .running ∧ write.resetPhase = .running ∧
      read.ops.slot = some walkSlot ∧ first.ops.slot = some walkSlot ∧ write.ops.slot = some walkSlot ∧
      read.capturesGranted ∧ first.capturesGranted ∧ write.capturesGranted :=
  ⟨⟨rfl, failsBothWays_any _, rfl, rfl, rfl, by decide⟩, ⟨rfl, .inl ⟨rfl, rfl⟩, rfl, ⟨1, rfl⟩, rfl, rfl⟩, rfl,
    failsBothWays_any _, rfl, rfl, rfl, rfl, rfl, rfl, rfl, .inr (by decide +kernel), .inr (by decide +kernel),
    .inr (by decide +kernel)⟩

theorem witness_ARollbackSettles :
    let drain := draining (journaling [closed 1 0, opened 2 40] 40 40 0)
    let owing : State := { restoring 40 with ops := { (restoring 40).ops with owed := ⟨true, true, true⟩ } }
    (owing.resetPhase = .running ∧ owing.epoch.mode = .journaling ∧ owing.ops.slot = some walkSlot ∧
        owing.engine = some ⟨2, 40, some 40, ⟨.got 0, .got goodHeader⟩, 3⟩ ∧ owing.TableOk ∧
        opened 2 40 ∈ owing.epoch.table ∧
        owing.mport.outstandingOf 7 = some (asked .restoreWrite)) ∧
    ((restoring 40).resetPhase = .running ∧ (restoring 40).epoch.mode = .journaling ∧
        (restoring 40).ops.slot = some walkSlot ∧
        (restoring 40).engine = some ⟨2, 40, some 40, ⟨.got 0, .got goodHeader⟩, 3⟩ ∧
        (restoring 40).TableOk ∧ opened 2 40 ∈ (restoring 40).epoch.table ∧
        (restoring 40).ops.owed = .empty ∧
        (restoring 40).mport.outstandingOf 7 = some (asked .restoreWrite) ∧
        ((holding .ready (restoring 40)).waq.map WaqEntry.key).Nodup) ∧
      drain.resetPhase = .running ∧ drain.epoch.mode = .journaling ∧
      drain.ops.slot = some ⟨.rollback, .command, .drain, .empty, true, true⟩ ∧
      drain.engine = some ⟨2, 40, none, ⟨.idle, .idle⟩, 0⟩ ∧ drain.TableOk ∧
      opened 2 40 ∈ drain.epoch.table ∧ drain.ops.owed = .empty ∧ drain.drainDone = true ∧
      drain.journal.head = 40 := by
  refine ⟨⟨rfl, rfl, rfl, rfl, twoEpochs_tableOk _ rfl rfl rfl, by decide +kernel, rfl⟩,
    ⟨rfl, rfl, rfl, rfl, twoEpochs_tableOk _ rfl rfl rfl, by decide +kernel, rfl,
    by decide +kernel, by decide +kernel⟩, rfl, rfl, rfl, rfl, ?_, by decide +kernel, rfl,
    by decide +kernel, rfl⟩
  exact ⟨by decide +kernel, by decide +kernel, by decide +kernel, by decide +kernel, by decide +kernel,
    by decide +kernel⟩

theorem witness_AFailedWalkBreaksThePart :
    let bad := goodHeader ^^^ 1
    let lost := awaiting .restoreImage (walking 2 40 64 (.asking 3) (.asking 1) 0 twoEpochs)
    (reading64.resetPhase = .running ∧ reading64.mport.outstandingOf 7 = some (asked .restoreHeader) ∧
        reading64.ops.slot = some walkSlot ∧
        reading64.engine = some ⟨2, 40, some 64, ⟨.got 0, .asking 3⟩, 0⟩ ∧
        LastRead (asked .restoreHeader) ⟨2, 40, some 64, ⟨.got 0, .asking 3⟩, 0⟩ 0 bad 3 (.okay bad) ∧
        recordPasses 64 (reading64.expectedEpoch 64) 0 (lineHeader bad) = false ∧
        reading64.requestEnds 7 (.okay bad) (.mPortAnswer 7 (.okay bad)) reading64.mport.withheld) ∧
      (lost.resetPhase = .running ∧ lost.mport.outstandingOf 7 = some (asked .restoreImage) ∧
        lost.ops.slot = some walkSlot ∧
        lost.engine = some ⟨2, 40, some 64, ⟨.asking 3, .asking 1⟩, 0⟩ ∧ failsBothWays lost) ∧
      (failsBothWays (restoring 41) ∧ (restoring 41).mport.outstandingOf 7 = some (asked .restoreWrite) ∧
        (restoring 41).engine = some ⟨2, 40, some 41, ⟨.got 0, .got goodHeader⟩, 3⟩) ∧
      reading64.capturesGranted ∧ lost.capturesGranted ∧ (restoring 41).capturesGranted := by
  refine ⟨⟨rfl, rfl, rfl, rfl, ?_, by decide +kernel, .inl ⟨rfl, rfl⟩⟩,
    ⟨rfl, rfl, rfl, rfl, failsBothWays_any _⟩, ⟨failsBothWays_any _, rfl, rfl⟩,
    .inr (by decide +kernel), .inr (by decide +kernel), .inr (by decide +kernel)⟩
  unfold LastRead
  decide +kernel

/-- PARAM names a target epoch, and the one entry at it has this condition. -/
def targeting (n : Nat) (condition : Condition) : State :=
  param n (journaling [{ closed 1 0 with condition := condition }, opened 2 40] 65 65 0)

theorem witness_ARollbackIsRefused :
    let limit := param 0 (journaling [opened (2 ^ 48 - 1) 0] 10 10 0)
    let entry (c : Condition) : Checkpoint := { closed 1 0 with condition := c }
    let busy (src : Source) := inSlot .rollback src .drain false false (targeting 1 .usable)
    (ready configured ∧ configured.epoch.mode ≠ .journaling) ∧
      (ready limit ∧ limit.epoch.mode = .journaling ∧ 2 ^ 48 - 1 ≤ limit.epoch.counter) ∧
      (ready (targeting 9 .usable) ∧ (targeting 9 .usable).epoch.counter < 2 ^ 48 - 1 ∧
        rollbackTarget (targeting 9 .usable).mailbox.param ≠ 0 ∧
        ∀ c ∈ (targeting 9 .usable).epoch.table,
          c.epoch ≠ rollbackTarget (targeting 9 .usable).mailbox.param) ∧
      (ready (targeting 1 .damaged) ∧ (targeting 1 .damaged).targetEntry
        (rollbackTarget (targeting 1 .damaged).mailbox.param) = some (entry .damaged)) ∧
      (ready (targeting 1 .lost) ∧ (targeting 1 .lost).targetEntry
        (rollbackTarget (targeting 1 .lost).mailbox.param) = some (entry .lost)) ∧
      ∀ src ∈ [Source.fault, .command], ready (busy src) ∧
        (busy src).targetEntry (rollbackTarget (busy src).mailbox.param) = some (entry .usable) ∧
        (busy src).ops.slot = some ⟨.rollback, src, .drain, .empty, false, false⟩ := by
  unfold ready
  decide +kernel

theorem witness_ACommandRollbackStarts :
    let idle := targeting 1 .usable
    let sealing := inSlot .seal .timer .gather false true idle
    (ready idle ∧ idle.epoch.mode = .journaling ∧ idle.epoch.counter < 2 ^ 48 - 1 ∧
        idle.targetEntry (rollbackTarget idle.mailbox.param) = some (closed 1 0) ∧
        (closed 1 0).condition = .usable ∧ idle.ops.slot = none ∧
        (⟨false, false, false⟩ : SealSources) = idle.ops.owed) ∧
      ready sealing ∧ sealing.targetEntry (rollbackTarget sealing.mailbox.param) = some (closed 1 0) ∧
      sealing.ops.slot = some ⟨.seal, .timer, .gather, .empty, false, true⟩ ∧
      (⟨true, false, false⟩ : SealSources) = (sealing.ops.owed.union .empty).add .timer := by
  unfold ready
  decide +kernel

/-- Faults are enabled at this depth. -/
def armed (depth : Nat) (s : State) : State := { s with policy := ⟨true, depth, 200⟩ }

theorem witness_AFaultEdgeOutsideJournaling :
    let high : State := { early with faultLevel := true }
    (high.resetPhase = .running ∧ high.faultLevel = true) ∧
      (early.resetPhase = .running ∧ early.faultLevel = false ∧ early.policy.faultEnable = false) ∧
      ((armed 0 brokenPart).resetPhase = .running ∧ (armed 0 brokenPart).faultLevel = false ∧
        (armed 0 brokenPart).policy.faultEnable = true ∧ (armed 0 brokenPart).epoch.mode = .broken) ∧
      (armed 0 configured).resetPhase = .running ∧ (armed 0 configured).faultLevel = false ∧
      (armed 0 configured).policy.faultEnable = true ∧
      (armed 0 configured).epoch.mode = .passthrough := by decide +kernel

theorem witness_AFaultWithoutTargetFencesThePart :
    let limit := armed 0 (journaling [opened (2 ^ 48 - 1) 0] 10 10 0)
    let lost := armed 0 (journaling [{ opened 1 0 with condition := .lost }] 10 10 0)
    (limit.resetPhase = .running ∧ limit.faultLevel = false ∧ limit.policy.faultEnable = true ∧
        limit.epoch.mode = .journaling ∧ limit.ops.holds .rollback = false ∧
        limit.epoch.counter = 2 ^ 48 - 1) ∧
      lost.resetPhase = .running ∧ lost.faultLevel = false ∧ lost.policy.faultEnable = true ∧
      lost.epoch.mode = .journaling ∧ lost.ops.holds .rollback = false ∧
      ∀ c ∈ lost.epoch.table, c.condition ≠ .usable := by decide +kernel

/-- The hypotheses that the cases of `AFaultStartsARollback` share: depth 1 names the DAMAGED entry, and
the newest one is taken. -/
def faulted (s : State) : Prop :=
  s.resetPhase = .running ∧ s.faultLevel = false ∧ s.policy.faultEnable = true ∧
    s.epoch.mode = .journaling ∧ s.epoch.counter ≠ 2 ^ 48 - 1 ∧
    s.epoch.table = [{ closed 1 0 with condition := .damaged }] ++ opened 2 40 :: [] ∧
    s.epoch.table.length - 1 - s.policy.faultDepth ≤ 1 ∧
    ∀ x ∈ [{ closed 1 0 with condition := Condition.damaged }].drop
      (s.epoch.table.length - 1 - s.policy.faultDepth), x.condition ≠ .usable

theorem witness_AFaultStartsARollback :
    let idle := armed 1 (targeting 1 .damaged)
    let stop := inSlot .stop .command .gather true true idle
    let drain := inSlot .rollback .command .drain true true idle
    let verify := scanning scan63 idle
    (faulted idle ∧ idle.ops.slot = none ∧ idle.ops.hasCommand = false) ∧
      (faulted stop ∧ stop.ops.slot = some ⟨.stop, .command, .gather, .empty, true, true⟩ ∧
        stop.ops.hasCommand = true) ∧
      (faulted drain ∧ drain.ops.slot = some ⟨.rollback, .command, .drain, .empty, true, true⟩) ∧
      faulted verify ∧ verify.ops.slot = some ⟨.verify, .command, .scan, .empty, true, false⟩ ∧
      verify.scan = some scan63 := by
  unfold faulted
  decide +kernel

theorem witness_AFaultDuringRecoveryIsCounted :
    let own := armed 0 (inSlot .rollback .fault .drain false false twoEpochs)
    let late := armed 0 (inSlot .rollback .command .restore true true twoEpochs)
    (own.resetPhase = .running ∧ own.faultLevel = false ∧ own.policy.faultEnable = true ∧
        own.epoch.mode = .journaling ∧
        own.ops.slot = some ⟨.rollback, .fault, .drain, .empty, false, false⟩) ∧
      late.resetPhase = .running ∧ late.faultLevel = false ∧ late.policy.faultEnable = true ∧
      late.epoch.mode = .journaling ∧
      late.ops.slot = some ⟨.rollback, .command, .restore, .empty, true, true⟩ := by decide +kernel

/-- A fence with this flag, timer and FAULT level. -/
def fencedPart (cause : Option ReleaseCause) (timer : Option Nat) (high : Bool) (s : State) : State :=
  { s with gate := ⟨.fence, cause, timer⟩, faultLevel := high }

theorem witness_TheFenceOpens :
    let falls := fencedPart (some .timer) none true configured
    let stays := fencedPart none none true configured
    let opens := fencedPart none (some 0) false configured
    let waits := fencedPart none (some 0) true configured
    (early.resetPhase = .running ∧ early.faultLevel = false ∧ early.gate.timer = none) ∧
      (falls.resetPhase = .running ∧ falls.faultLevel = true ∧ falls.gate.state = .fence ∧
        falls.gate.armed = some .timer ∧ falls.ops.holds .rollback = false ∧
        falls.epoch.mode ≠ .broken) ∧
      (stays.resetPhase = .running ∧ stays.faultLevel = true ∧ stays.gate.armed = none) ∧
      (opens.resetPhase = .running ∧ opens.gate.timer = some 0 ∧ opens.gate.state = .fence ∧
        opens.gate.armed = none ∧ opens.faultLevel = false ∧ opens.ops.holds .rollback = false ∧
        opens.epoch.mode ≠ .broken) ∧
      waits.resetPhase = .running ∧ waits.gate.timer = some 0 ∧ waits.gate.state = .fence ∧
      waits.faultLevel = true := by decide +kernel

theorem witness_TheReleaseCommand :
    let low := fencedPart none none false configured
    let high := fencedPart none none true configured
    let set := fencedPart (some .command) none true configured
    (ready brokenPart ∧ brokenPart.epoch.mode = .broken) ∧
      (ready low ∧ low.epoch.mode ≠ .broken ∧ low.gate.state = .fence ∧ low.gate.armed = none ∧
        low.faultLevel = false ∧ low.ops.holds .rollback = false) ∧
      (ready high ∧ high.epoch.mode ≠ .broken ∧ high.gate.state = .fence ∧ high.gate.armed = none ∧
        high.faultLevel = true) ∧
      (ready set ∧ set.epoch.mode ≠ .broken ∧ set.gate.state = .fence ∧ set.gate.armed ≠ none) ∧
      ready early ∧ early.epoch.mode ≠ .broken ∧ early.gate.state ≠ .fence ∧ early.gate.armed = none := by
  unfold ready
  decide +kernel

/-- PARAM of SET_JOURNAL. -/
def geometry (base capacity depth : Nat) : Nat := base + capacity * 2 ^ 64 + depth * 2 ^ 96

/-- A PASSTHROUGH part with two regions and these journal parameters in PARAM. -/
def setting (base capacity depth : Nat) : State := param (geometry base capacity depth) configured

theorem witness_TheSetJournalCommand :
    let largest := setting (2 ^ 40 - 16777216 * 128) 16777216 4
    let meets := setting 0 1024 1
    (ready early ∧ early.epoch.mode ≠ .passthrough) ∧
      (ready (setting 0 0 0) ∧ (setting 0 0 0).epoch.mode = .passthrough ∧
        journalParams (setting 0 0 0).mailbox.param = ⟨0, 0, 0⟩) ∧
      (ready (setting 0 1023 1) ∧
        journalParams (setting 0 1023 1).mailbox.param = ⟨0, 1023, 1⟩ ∧ (1023 : Nat) < 1024) ∧
      (ready largest ∧ largest.epoch.mode = .passthrough ∧
        journalParams largest.mailbox.param = ⟨2 ^ 40 - 16777216 * 128, 16777216, 4⟩ ∧
        (2 ^ 40 - 16777216 * 128) % 4096 = 0) ∧
      ready meets ∧ journalParams meets.mailbox.param = ⟨0, 1024, 1⟩ ∧
      ¬ClearOfRegions meets 0 (2 * 1024 - 1) := by
  unfold ready
  refine ⟨by decide +kernel, by decide +kernel, by decide +kernel, by decide +kernel, by decide +kernel,
    by decide +kernel, ?_⟩
  intro h
  have := h .tracked 0x40 0x3FFF (.inl (by decide +kernel))
  revert this
  decide +kernel

/-- The area that ends where the address space does meets neither region. -/
theorem witness_TheSetJournalCommand_clear :
    ClearOfRegions (setting (2 ^ 40 - 16777216 * 128) 16777216 4) ((2 ^ 40 - 16777216 * 128) / 64)
      ((2 ^ 40 - 16777216 * 128) / 64 + 2 * 16777216 - 1) := by
  intro m b l h
  have ht : RegionEntry.valid m b l ∈ twoRegions.toList := by rcases h with h | h <;> exact h
  have hm : RegionEntry.valid m b l ∈
      ([.valid .tracked 0x40 0x3FFF, .valid .fenced 0x4000 0x403F] ++
        List.replicate 6 (.notValid .untracked 0 0) : List RegionEntry) := ht
  simp only [List.mem_append, List.mem_cons, List.mem_replicate, RegionEntry.valid.injEq] at hm
  rcases hm with (⟨-, -, rfl⟩ | ⟨-, -, rfl⟩ | h) | ⟨-, h⟩
  · exact .inl (by decide +kernel)
  · exact .inl (by decide +kernel)
  · cases h
  · cases h

/-- PARAM of SET_REGION. -/
def regionOf (index valid mode base limit : Nat) (s : State) : State :=
  param (index + valid * 2 ^ 8 + mode * 2 ^ 16 + base * 2 ^ 24 + limit * 2 ^ 64) s

theorem witness_TheSetRegionCommand :
    let past := regionOf 8 1 1 0 63 configured
    let empty := regionOf 7 0 0 0 0 configured
    let short := regionOf 7 1 1 0 62 configured
    let last := regionOf 7 1 3 (2 ^ 34 - 64) (2 ^ 34 - 1) configured
    let meets := regionOf 7 1 2 0x4000 0x403F configured
    let area := regionOf 7 1 2 0x40000000 0x4000003F configured
    (ready past ∧ regionParams past.mailbox.param = ⟨8, true, 1, 0, 63⟩ ∧ 7 < 8) ∧
      (ready empty ∧ regionParams empty.mailbox.param = ⟨7, false, 0, 0, 0⟩) ∧
      (ready short ∧ regionParams short.mailbox.param = ⟨7, true, 1, 0, 62⟩ ∧ (62 + 1) % 64 ≠ 0) ∧
      (ready last ∧ regionParams last.mailbox.param = ⟨7, true, 3, 2 ^ 34 - 64, 2 ^ 34 - 1⟩ ∧
        regionModeCode .fenced = 3 ∧ (2 ^ 34 - 64) % 64 = 0 ∧ (2 ^ 34 - 1 + 1) % 64 = 0 ∧
        last.journal.base / 64 + 2 * last.journal.capacity ≤ 2 ^ 34 - 64) ∧
      (ready meets ∧ regionParams meets.mailbox.param = ⟨7, true, 2, 0x4000, 0x403F⟩ ∧
        RegionEntry.valid .fenced 0x4000 0x403F ∈ meets.regions.shadow.toList.eraseIdx 7) ∧
      ready area ∧ regionParams area.mailbox.param = ⟨7, true, 2, 0x40000000, 0x4000003F⟩ ∧
      area.journal.capacity ≠ 0 ∧ area.journal.base / 64 ≤ 0x4000003F ∧
      0x40000000 < area.journal.base / 64 + 2 * area.journal.capacity := by
  unfold ready
  decide +kernel

/-- The region of the last lines meets no other entry. -/
theorem witness_TheSetRegionCommand_clear (m : LineMode) (b l : LineIndex)
    (h : RegionEntry.valid m b l ∈ configured.regions.shadow.toList.eraseIdx 7) :
    l.toNat < 2 ^ 34 - 64 ∨ 2 ^ 34 - 1 < b.toNat := by
  have hm : RegionEntry.valid m b l ∈
      ([.valid .tracked 0x40 0x3FFF, .valid .fenced 0x4000 0x403F] ++
        List.replicate 5 (.notValid .untracked 0 0) : List RegionEntry) := h
  simp only [List.mem_append, List.mem_cons, List.mem_replicate, RegionEntry.valid.injEq] at hm
  rcases hm with (⟨-, -, rfl⟩ | ⟨-, -, rfl⟩ | h) | ⟨-, h⟩
  · exact .inl (by decide +kernel)
  · exact .inl (by decide +kernel)
  · cases h
  · cases h

theorem witness_TheSetPolicyCommand :
    let tracked := param 1 configured
    let deep := param (2 + 1 * 2 ^ 8 + 4 * 2 ^ 16) configured
    let good := param (3 + 1 * 2 ^ 8 + 3 * 2 ^ 16 + 65535 * 2 ^ 32) early
    (ready tracked ∧ policyParams tracked.mailbox.param = ⟨1, 0, 0, 0⟩ ∧ unmappedCode .untracked ≠ 1 ∧
        unmappedCode .fenced ≠ 1) ∧
      (ready deep ∧ policyParams deep.mailbox.param = ⟨2, 1, 4, 0⟩ ∧ 3 < 4) ∧
      ready good ∧ policyParams good.mailbox.param = ⟨3, 1, 3, 65535⟩ ∧ unmappedCode .fenced = 3 := by
  unfold ready
  decide +kernel

theorem witness_TheStartCommand :
    (ready early ∧ early.epoch.mode ≠ .passthrough) ∧
      (ready State.reset ∧ State.reset.epoch.mode = .passthrough ∧ State.reset.journal.capacity = 0) ∧
      ready (holding .ready configured) ∧ (holding .ready configured).epoch.mode = .passthrough ∧
      (holding .ready configured).journal.capacity ≠ 0 ∧
      ((holding .ready configured).waq.map WaqEntry.key).Nodup := by
  unfold ready
  decide +kernel

theorem witness_TheRecoverCommand :
    (ready early ∧ early.epoch.mode ≠ .broken) ∧
      ready brokenPart ∧ brokenPart.epoch.mode = .broken ∧ brokenPart.gate.armed = none := by
  unfold ready
  decide +kernel

theorem witness_TheReadCheckpointsCommand : ready twoEpochs := by
  unfold ready
  decide +kernel

theorem witness_TheReadRecordCommand :
    let past := param 65 twoEpochs
    let last := param 64 twoEpochs
    let failed : State :=
      { past with epoch := ⟨.broken, 0, []⟩, journal := { past.journal with head := 66 } }
    let beyond : State := { failed with journal := { past.journal with head := 65 } }
    (ready configured ∧ configured.epoch.mode = .passthrough) ∧
      (ready past ∧ recordPosition past.mailbox.param = 65 ∧ past.epoch.mode = .journaling ∧
        ¬(past.journal.tail ≤ 65 ∧ 65 < past.journal.written)) ∧
      (ready beyond ∧ recordPosition beyond.mailbox.param = 65 ∧ beyond.epoch.mode = .broken ∧
        ¬(beyond.journal.tail ≤ 65 ∧ 65 < beyond.journal.head)) ∧
      (ready last ∧ recordPosition last.mailbox.param = 64 ∧ last.epoch.mode = .journaling ∧
        last.journal.tail ≤ 64 ∧ 64 < last.journal.written ∧ last.capturesGranted) ∧
      ready failed ∧ recordPosition failed.mailbox.param = 65 ∧ failed.epoch.mode = .broken ∧
      failed.journal.tail ≤ 65 ∧ 65 < failed.journal.head ∧ failed.capturesGranted := by
  unfold ready State.capturesGranted
  decide +kernel

/-- The hypotheses of `AReadRecordCompletes` on the state, the reads and the answer. -/
def recordRead (s : State) (i : Inspection) (line : RecordLine) (a : MemAnswer)
    (image header : Option Line) : Prop :=
  s.resetPhase = .running ∧
    s.mport.outstandingOf 7 =
      some (asked (match line with | .image => .inspectImage | .header => .inspectHeader)) ∧
    s.requestEnds 7 a (.mPortAnswer 7 a) s.mport.withheld ∧
    s.inspect = some i ∧ i.current.endsBoth line a image header ∧ s.capturesGranted

/-- A read that ends neither or the first of the two: in its second attempt, failing both ways, and a third
failure while the other read is asked for still. -/
def readsOn (line : RecordLine) (current : ReadPair) (s : State) : Prop :=
  s.resetPhase = .running ∧ s.capturesGranted ∧ failsBothWays s ∧
    (current.failsEarly line .error 2 ∨ current.endsFirst line .error .failed)

theorem witness_AReadRecordCompletes_again :
    let s (p : ReadPair) : State := { awaiting .inspectHeader twoEpochs with inspect := some ⟨64, p⟩ }
    (readsOn .header ⟨.got 5, .asking 2⟩ (s ⟨.got 5, .asking 2⟩)) ∧
      readsOn .header ⟨.asking 1, .asking 3⟩ (s ⟨.asking 1, .asking 3⟩) ∧
      (s ⟨.asking 1, .asking 3⟩).mport.outstandingOf 7 = some (asked .inspectHeader) ∧
      (s ⟨.asking 1, .asking 3⟩).inspect = some ⟨64, ⟨.asking 1, .asking 3⟩⟩ :=
  ⟨⟨rfl, .inr (by decide +kernel), failsBothWays_any _, .inl ⟨rfl, rfl, by decide⟩⟩,
    ⟨rfl, .inr (by decide +kernel), failsBothWays_any _, .inr ⟨⟨1, rfl⟩, rfl, rfl⟩⟩, rfl, rfl⟩

/-- The header last in JOURNALING; the image last in BROKEN; the header failing a third time; a position
that tail has passed. -/
theorem witness_AReadRecordCompletes :
    let s (o : Owner) (i : Inspection) : State := { awaiting o twoEpochs with inspect := some i }
    let last : Inspection := ⟨64, ⟨.got 5, .asking 1⟩⟩
    let first : Inspection := ⟨64, ⟨.asking 2, .got 9⟩⟩
    let failing : Inspection := ⟨64, ⟨.got 5, .asking 3⟩⟩
    let broken : State := { s .inspectImage first with epoch := ⟨.broken, 0, []⟩ }
    let passed : State := { s .inspectHeader last with journal := { twoEpochs.journal with tail := 65 } }
    (recordRead (s .inspectHeader last) last .header (.okay 9) (some 5) (some 9) ∧
        inRange (s .inspectHeader last) 64 = true) ∧
      (recordRead broken first .image (.okay 5) (some 5) (some 9) ∧ inRange broken 64 = true) ∧
      (recordRead (s .inspectHeader failing) failing .header .error (some 5) none ∧
        failsBothWays (s .inspectHeader failing)) ∧
      recordRead passed last .header (.okay 9) (some 5) (some 9) ∧ inRange passed 64 = false := by
  unfold recordRead State.capturesGranted ReadPair.endsBoth failsBothWays State.requestEnds
  refine ⟨?_, ?_, ?_, ?_⟩ <;> decide +kernel

theorem witness_TheVerifyCommand :
    let sealing := inSlot .seal .timer .gather false true early
    let none' : State :=
      { journaling [opened 1 0] 0 0 0 with ops := ⟨none, ⟨false, false, true⟩, false⟩ }
    (ready configured ∧ configured.epoch.mode ≠ .journaling) ∧
      (ready sealing ∧ sealing.epoch.mode = .journaling ∧ sealing.ops.slot ≠ none) ∧
      (ready early ∧ early.epoch.mode = .journaling ∧ early.ops.slot = none ∧ early.capturesGranted ∧
        early.journal.tail < early.journal.written) ∧
      ready none' ∧ none'.epoch.mode = .journaling ∧ none'.ops.slot = none ∧ none'.capturesGranted ∧
      none'.journal.tail = none'.journal.written := by
  unfold ready State.capturesGranted
  decide +kernel

/-- The hypotheses of `TheScanTakesARecord` on the state, the reads and the answer. -/
def recordScanned (s : State) (sc : Scan) (line : RecordLine) (a : MemAnswer) (image header : Option Line) :
    Prop :=
  s.resetPhase = .running ∧
    s.mport.outstandingOf 7 =
      some (asked (match line with | .image => .verifyImage | .header => .verifyHeader)) ∧
    s.requestEnds 7 a (.mPortAnswer 7 a) s.mport.withheld ∧
    s.scan = some sc ∧ sc.current.endsBoth line a image header ∧ s.epoch.mode = .journaling ∧
    s.capturesGranted

theorem witness_TheScanTakesARecord_again :
    let s (p : ReadPair) : State := awaiting .verifyImage (scanning { scan63 with current := p } twoEpochs)
    (readsOn .image ⟨.asking 2, .failed⟩ (s ⟨.asking 2, .failed⟩)) ∧
      readsOn .image ⟨.asking 3, .asking 1⟩ (s ⟨.asking 3, .asking 1⟩) ∧
      (s ⟨.asking 3, .asking 1⟩).mport.outstandingOf 7 = some (asked .verifyImage) ∧
      (s ⟨.asking 3, .asking 1⟩).scan = some { scan63 with current := ⟨.asking 3, .asking 1⟩ } ∧
      (s ⟨.asking 3, .asking 1⟩).epoch.mode = .journaling :=
  ⟨⟨rfl, .inr (by decide +kernel), failsBothWays_any _, .inl ⟨rfl, rfl, by decide⟩⟩,
    ⟨rfl, .inr (by decide +kernel), failsBothWays_any _, .inr ⟨⟨1, rfl⟩, rfl, rfl⟩⟩, rfl, rfl, rfl⟩

/-- A record before the last; the last one, its image last; the last one unreadable; a record that tail has
passed. -/
theorem witness_TheScanTakesARecord :
    let s (o : Owner) (sc : Scan) := awaiting o (scanning sc twoEpochs)
    let last : Scan := { scan63 with position := 64, checked := 64, current := ⟨.asking 2, .got 9⟩ }
    let failing : Scan := { scan63 with position := 64, checked := 64, current := ⟨.failed, .asking 3⟩ }
    let passed : State := { s .verifyHeader scan63 with journal := { twoEpochs.journal with tail := 64 } }
    (recordScanned (s .verifyHeader scan63) scan63 .header (.okay 9) (some 0) (some 9) ∧
        (scanNext scan63 0 true false).position < scan63.scanEnd) ∧
      (recordScanned (s .verifyImage last) last .image (.okay 5) (some 5) (some 9) ∧
        last.scanEnd ≤ (scanNext last 0 true false).position) ∧
      (recordScanned (s .verifyHeader failing) failing .header .error none none ∧
        failsBothWays (s .verifyHeader failing)) ∧
      recordScanned passed scan63 .header (.okay 9) (some 0) (some 9) ∧
      scan63.position < passed.journal.tail ∧
      (scanNext scan63 passed.journal.tail true false).position < scan63.scanEnd := by
  unfold recordScanned State.capturesGranted ReadPair.endsBoth failsBothWays State.requestEnds
  refine ⟨?_, ?_, ?_, ?_, ?_⟩ <;> decide +kernel

theorem witness_TheMailboxTakesOneCommand :
    let running := inSlot .seal .command .gather true true early
    running.resetPhase = .running ∧ isCommandCode 0x0D = false ∧ running.mailbox.cmd ≠ 0 ∧
      early.resetPhase = .running ∧ early.mailbox.cmd = 0 := by decide +kernel

/-- A write of one byte, which leaves EXTEND, and whole writes that clear EXTEND with timer-owed set: on an idle
slot, on a SEAL, a STOP and a rollback, and in place of VERIFY. -/
theorem witness_ATimerCtlWrite :
    let owing (slot : State → State) : Prop :=
      let s := slot { expiring true early with ops := { early.ops with owed := ⟨true, false, false⟩ } }
      s.resetPhase = .running ∧ s.timer.extend = true ∧ s.ops.owed.timer = true ∧
        s.epoch.mode = .journaling ∧ (s.ops.holds .verify = true → s.scan.isSome = true)
    (writtenByte [0x10] 3 1).getLsbD 0 = true ∧ (writtenByte [1, 2, 3, 0x00] 3 1).getLsbD 0 = false ∧
      (early.resetPhase = .running ∧ early.timer.extend = false) ∧ owing id ∧
      owing (inSlot .seal .command .gather true true) ∧ owing (inSlot .stop .command .gather true true) ∧
      owing (inSlot .rollback .command .drain true true) ∧ owing (scanning scan63) := by decide +kernel

theorem witness_TheRegisterWrites :
    let s : State := { early with events := { early.events with queue := [⟨65535, .epochLimit, 0, 1, 0, 1⟩] } }
    s.resetPhase = .running ∧ s.events.queue = ⟨65535, .epochLimit, 0, 1, 0, 1⟩ :: [] ∧
      (0xFF#8).toNat + (0xFF#8).toNat * 256 = 65535 ∧ (0xFE#8).toNat + (0xFF#8).toNat * 256 ≠ 65535 ∧
      early.events.queue = [] ∧ [0xFF#8].length < 2 ∧
      BusAddress.sevenBit 0x2C = .sevenBit s.i2c.address ∧
      (hasOwnRow 0x06 = false ∧ (0x06 : Byte) ≠ 0x05) ∧
      BusAddress.sevenBit 0x2D ≠ .sevenBit s.i2c.address ∧
      BusAddress.tenBit 0x2C ≠ .sevenBit s.i2c.address := by decide +kernel

theorem witness_TheWindowShowsTheRegisters :
    let s : State := { early with events := { early.events with queue := [⟨1, .epochLimit, 0, 1, 0, 1⟩] } }
    (s.resetPhase = .running ∧ ∀ i k, byteAt (s.snapshot i) k = byteAt (s.snapshot i) k) ∧
      s.acknowledges (.sevenBit 0x2D) = false ∧
      s.events.queue = ⟨1, .epochLimit, 0, 1, 0, 1⟩ :: [] ∧ s.events.queue.length ≤ 32 ∧
      (inSlot .seal .timer .gather false true early).ops.slot =
        some ⟨.seal, .timer, .gather, .empty, false, true⟩ ∧
      early.ops.slot = none ∧ early.events.queue = [] ∧ s.epoch.table.length ≤ 4 := by
  refine ⟨⟨rfl, fun _ _ => rfl⟩, ?_⟩
  decide +kernel

theorem witness_ABuiltRecordPasses : 2 ^ 48 - 1 < 2 ^ 48 := by decide

/-- A state that meets the premises of all six step statements, with a command in front whose step gives
a next state. -/
def sound : State := { early with pending := [.seal] }

theorem witness_EveryStepKeepsTheEventQueue : sound.events.Ok ∧ ∃ t, step sound = .next t :=
  ⟨⟨by decide +kernel, by decide +kernel, by decide +kernel, by decide +kernel, by decide +kernel⟩, _, rfl⟩

theorem sound_resourcesOk : sound.ResourcesOk where
  waq_bound := by decide +kernel
  capture_bound := by decide +kernel
  granted := by unfold State.capturesGranted; decide +kernel
  slot_bound := by decide +kernel
  idents_used_once := by decide +kernel
  ltt_sorted := by decide +kernel
  ltt_sets := fun _ => Nat.zero_le 4
  ages_sorted := by decide +kernel
  ages_past := by decide +kernel

theorem witness_EveryStepKeepsTheResources : sound.ResourcesOk ∧ ∃ t, step sound = .next t :=
  ⟨sound_resourcesOk, _, rfl⟩

theorem sound_modesOk : sound.ModesOk where
  no_epoch := by decide +kernel
  no_operation := by decide +kernel
  broken_fenced := by decide +kernel
  release_fenced := by decide +kernel
  fault_fenced := nofun

theorem sound_commandOk : sound.CommandOk where
  running := by decide +kernel
  one_owner := by decide +kernel
  abort_needs_command := by decide +kernel
  scan_runs := by decide +kernel
  engine_runs := by decide +kernel
  verify_commanded := nofun
  phases := nofun
  in_progress := by decide +kernel

theorem sound_requestsOk : sound.RequestsOk where
  keys_once := by decide +kernel
  ready := by decide +kernel
  issued := by decide +kernel
  capturing := by decide +kernel
  heads := by unfold State.headsDecided; decide +kernel
  writes := by decide +kernel

theorem sound_ledgerOk : sound.LedgerOk where
  positions := by decide +kernel
  depth := by decide +kernel
  table _ :=
    ⟨by decide +kernel, by decide +kernel, by decide +kernel, by decide +kernel, by decide +kernel,
      by decide +kernel⟩
  starts := by decide +kernel
  passthrough := by decide +kernel
  no_capture := by decide +kernel
  reading := by decide +kernel
  records_once := by decide +kernel
  records_between := by decide +kernel
  rollback_holds := by decide +kernel
  target _ h := nomatch h
  walking _ _ h := nomatch h
  restoring _ h := nomatch h

theorem witness_EveryStepKeepsModesAndGate : sound.ModesOk ∧ ∃ t, step sound = .next t :=
  ⟨sound_modesOk, _, rfl⟩

theorem witness_EveryStepKeepsTheRunningCommand : sound.CommandOk ∧ ∃ t, step sound = .next t :=
  ⟨sound_commandOk, _, rfl⟩

theorem witness_EveryStepKeepsTheRequests :
    sound.ResourcesOk ∧ sound.RequestsOk ∧ ∃ t, step sound = .next t :=
  ⟨sound_resourcesOk, sound_requestsOk, _, rfl⟩

theorem witness_EveryStepKeepsTheTable :
    sound.ResourcesOk ∧ sound.ModesOk ∧ sound.CommandOk ∧ sound.RequestsOk ∧ sound.LedgerOk ∧
      ∃ t, step sound = .next t :=
  ⟨sound_resourcesOk, sound_modesOk, sound_commandOk, sound_requestsOk, sound_ledgerOk, _, rfl⟩

end Sys2Proof.Tests
end

section
/-! PROOFS. SET_JOURNAL: how a mailbox command that is taken runs and completes, the checks of R20, and
O39. -/

namespace Sys2Proof.Machine

/-! ### Taking and completing a mailbox command -/

/-- A command written to a free mailbox runs on the state in which it has begun (R160). -/
theorem runCommand_free {s : State} (hr : s.resetPhase = .running) (hc : s.mailbox.cmd = 0) (code : Byte)
    (body : State → State) : runCommand code body s = .next (body (s.begun code)) := by
  have hfree : (s.select cmdIndex 1).mailbox.cmd = 0 := hc
  rw [runCommand, whileRunning_running hr, State.takeCommand, if_pos hfree]
  rfl

/-- A command that completes in the step that takes it leaves the finished state (R161). -/
@[simp] theorem State.begun_complete (s : State) (code : Byte) (res : CommandResult) (why : Reason)
    (data : BitVec 768) : (s.begun code).complete res why data = s.finished code res why data := rfl

@[simp] theorem State.begun_reject (s : State) (code : Byte) (why : Reason) :
    (s.begun code).reject why = s.finished code .rejected why 0 := rfl

@[simp] theorem State.begun_epoch (s : State) (code : Byte) : (s.begun code).epoch = s.epoch := rfl

@[simp] theorem State.begun_copy (s : State) (code : Byte) :
    (s.begun code).mailbox.copy = s.mailbox.param := rfl

/-! ### The checks of SET_JOURNAL -/

/-- A table has no valid entry in a range exactly when each valid entry ends before it or begins after. -/
theorem tableMeets_eq_false_iff (t : Vector RegionEntry 8) (first last : Nat) :
    tableMeets t first last = false ↔
      ∀ m b l, RegionEntry.valid m b l ∈ t.toList → l.toNat < first ∨ last < b.toNat := by
  rw [tableMeets, List.any_eq_false]
  constructor
  · intro h m b l he
    have := h _ he
    simp only [RegionEntry.meets, rangesOverlap, Bool.and_eq_true, decide_eq_true_eq] at this
    omega
  · intro h e he
    cases e with
    | notValid m b l => simp [RegionEntry.meets]
    | valid m b l =>
      have := h m b l he
      simp only [RegionEntry.meets, rangesOverlap, Bool.and_eq_true, decide_eq_true_eq]
      omega

theorem clearOfRegions_iff (s : State) (first last : Nat) :
    ClearOfRegions s first last ↔
      (tableMeets s.regions.active first last || tableMeets s.regions.shadow first last) = false := by
  rw [Bool.or_eq_false_iff, tableMeets_eq_false_iff, tableMeets_eq_false_iff]
  constructor
  · intro h
    exact ⟨fun m b l he => h m b l (.inl he), fun m b l he => h m b l (.inr he)⟩
  · rintro ⟨ha, hs⟩ m b l (he | he)
    · exact ha m b l he
    · exact hs m b l he

/-- The parameters pass every check of R20 before the one against the region tables. -/
structure JournalParams.Fits (p : JournalParams) : Prop where
  capacity_min : 1024 ≤ p.capacity
  capacity_max : p.capacity ≤ 16777216
  base_aligned : p.base % 4096 = 0
  depth_min : 1 ≤ p.depth
  depth_max : p.depth ≤ 4
  inside : p.base + p.capacity * 128 ≤ 2 ^ 40

/-- With a capacity of 0 nothing is checked (R20). -/
theorem State.journalCheck_none_of_no_capacity (s : State) {p : JournalParams} (h : p.capacity = 0) :
    s.journalCheck p = none := by
  rw [State.journalCheck, if_pos h]

/-- Each of the first four checks fails with BAD_PARAM, so their order does not show (R20). -/
theorem State.journalCheck_badParam (s : State) {p : JournalParams} (h0 : p.capacity ≠ 0) (hp : ¬p.Fits) :
    s.journalCheck p = some .badParam := by
  rw [State.journalCheck, if_neg h0]
  by_cases hc : 1024 ≤ p.capacity ∧ p.capacity ≤ 16777216
  case neg => rw [if_pos hc]
  rw [if_neg (not_not.mpr hc)]
  by_cases hb : p.base % 4096 = 0
  case neg => rw [if_pos hb]
  rw [if_neg (not_not.mpr hb)]
  by_cases hd : 1 ≤ p.depth ∧ p.depth ≤ 4
  case neg => rw [if_pos hd]
  have he : 2 ^ 40 < p.base + p.capacity * 128 :=
    not_le.mp fun he => hp ⟨hc.1, hc.2, hb, hd.1, hd.2, he⟩
  rw [if_neg (not_not.mpr hd), if_pos he]

/-- Only the check against the region tables is left to parameters that fit (R20). -/
theorem State.journalCheck_of_fits (s : State) {p : JournalParams} (hp : p.Fits) :
    s.journalCheck p =
      if tableMeets s.regions.active (p.base / 64) (p.base / 64 + 2 * p.capacity - 1) ||
        tableMeets s.regions.shadow (p.base / 64) (p.base / 64 + 2 * p.capacity - 1) then some .overlap
      else none := by
  obtain ⟨hc, hC, hb, hd, hD, he⟩ := hp
  have h0 : p.capacity ≠ 0 := by omega
  rw [State.journalCheck, if_neg h0, if_neg (not_not.mpr ⟨hc, hC⟩), if_neg (not_not.mpr hb),
    if_neg (not_not.mpr ⟨hd, hD⟩), if_neg (not_lt.mpr he)]

theorem State.journalCheck_none_of_clear {s : State} {p : JournalParams} (hp : p.Fits)
    (h : ClearOfRegions s (p.base / 64) (p.base / 64 + 2 * p.capacity - 1)) : s.journalCheck p = none := by
  rw [s.journalCheck_of_fits hp, (clearOfRegions_iff s _ _).mp h]
  rfl

theorem State.journalCheck_overlap {s : State} {p : JournalParams} (hp : p.Fits)
    (h : ¬ClearOfRegions s (p.base / 64) (p.base / 64 + 2 * p.capacity - 1)) :
    s.journalCheck p = some .overlap := by
  rw [clearOfRegions_iff, Bool.not_eq_false] at h
  rw [s.journalCheck_of_fits hp, if_pos h]

/-! ### The three ends of SET_JOURNAL -/

section Ends

variable {s : State} (hr : s.resetPhase = .running) (hc : s.mailbox.cmd = 0)

include hr hc

theorem exec_setJournal : exec .setJournal s = .next (s.begun 0x01).setJournal :=
  runCommand_free hr hc 0x01 State.setJournal

theorem exec_setJournal_outside (hm : s.epoch.mode ≠ .passthrough) :
    exec .setJournal s = .next (s.finished 0x01 .rejected .wrongMode 0) := by
  rw [exec_setJournal hr hc, State.setJournal, State.begun_epoch, if_neg hm, State.begun_reject]

theorem exec_setJournal_refused {why : Reason} (hm : s.epoch.mode = .passthrough)
    (h : s.journalCheck (journalParams s.mailbox.param) = some why) :
    exec .setJournal s = .next (s.finished 0x01 .rejected why 0) := by
  have hb : (s.begun 0x01).journalCheck (journalParams s.mailbox.param) = some why := h
  rw [exec_setJournal hr hc, State.setJournal, State.begun_epoch, if_pos hm, State.begun_copy]
  simp only [hb, State.begun_reject]

theorem exec_setJournal_taken {g : JournalParams} (hm : s.epoch.mode = .passthrough)
    (h : s.journalCheck (journalParams s.mailbox.param) = none)
    (hg : geometryOf (journalParams s.mailbox.param) = g) :
    exec .setJournal s =
      .next ({ s with
        journal :=
          { s.journal with base := g.base, capacity := g.capacity, depth := g.depth } }.finished 0x01
        .done .none (field 4 5 g.base ||| field 12 4 g.capacity ||| field 16 1 g.depth)) := by
  have hb : (s.begun 0x01).journalCheck (journalParams s.mailbox.param) = none := h
  rw [exec_setJournal hr hc, State.setJournal, State.begun_epoch, if_pos hm, State.begun_copy]
  simp only [hb, hg]
  rfl

end Ends

/-- Settles O39, by the mode, then by the capacity and the checks of R20. -/
theorem theSetJournalCommand : Obligations.TheSetJournalCommand := by
  rintro s p hr hc rfl
  refine ⟨exec_setJournal_outside hr hc, fun hm => ⟨?removed, ?misfit, ?fits⟩⟩
  case removed =>
    intro h0
    exact exec_setJournal_taken hr hc hm (s.journalCheck_none_of_no_capacity h0) (if_pos h0)
  case misfit =>
    intro h0 hbad
    refine exec_setJournal_refused hr hc hm (s.journalCheck_badParam h0 fun hp => ?_)
    obtain ⟨_, _, _, _, _, _⟩ := hp
    omega
  case fits =>
    intro hcm hcM hb hdm hdM he
    have hp : (journalParams s.mailbox.param).Fits := ⟨hcm, hcM, hb, hdm, hdM, he⟩
    have h0 : (journalParams s.mailbox.param).capacity ≠ 0 := by omega
    exact ⟨fun h => exec_setJournal_taken hr hc hm (State.journalCheck_none_of_clear hp h) (if_neg h0),
      fun h => exec_setJournal_refused hr hc hm (State.journalCheck_overlap hp h)⟩

end Sys2Proof.Machine
end

section
/-! PROOFS. RECOVER: the gate without a release armed, what the command's body does in each mode, and
O43. -/

namespace Sys2Proof.Machine

/-! ### The gate without a release -/

/-- Without *release armed* an examination of the release conditions opens nothing (R52). -/
theorem State.examineRelease_of_not_armed {s : State} (h : s.gate.armed = none) : s.examineRelease = s := by
  rcases s.examineRelease_cases with ⟨hdue, _⟩ | ⟨_, hkeep⟩
  · obtain ⟨_, harmed, _⟩ := s.releaseDue_iff.mp hdue
    simp [h] at harmed
  · exact hkeep

/-! ### The body of RECOVER -/

/-- The part after it has left BROKEN for PASSTHROUGH, before the release conditions are examined and the
command completes (R131). -/
def State.leftBroken (s : State) : State :=
  { s with
    epoch := { s.epoch with mode := .passthrough }
    journal := { s.journal with head := 0, written := 0, tail := 0, ended := [] }
    ltt := []
    regions := s.regions.copied }

@[simp] theorem State.leftBroken_gate (s : State) : s.leftBroken.gate = s.gate := rfl

/-- The taking of the command and the leaving of BROKEN act on different parts of the state. -/
theorem State.begun_leftBroken (s : State) (code : Byte) :
    (s.begun code).leftBroken = s.leftBroken.begun code := rfl

/-- The positions at which the journal stood, where the result data of RECOVER shows them (R131, R167). -/
def Journal.positionData (j : Journal) : BitVec 768 :=
  field 4 8 j.head ||| field 12 8 j.written ||| field 20 8 j.tail

theorem State.recoverPart_outside {s : State} (hm : s.epoch.mode ≠ .broken) :
    s.recoverPart = s.reject .wrongMode := by
  unfold State.recoverPart
  split
  case h_1 => rfl
  case h_2 => rfl
  case h_3 hb => exact absurd hb hm

theorem State.recoverPart_broken {s : State} (hm : s.epoch.mode = .broken) :
    s.recoverPart = s.leftBroken.examineRelease.complete .done .none s.journal.positionData := by
  unfold State.recoverPart
  split
  case h_1 hp => exact absurd (hp.symm.trans hm) (by decide)
  case h_2 hj => exact absurd (hj.symm.trans hm) (by decide)
  case h_3 => rfl

/-- With no release armed, RECOVER in BROKEN leaves the gate as it is (R52, R131). -/
theorem State.recoverPart_broken_not_armed {s : State} (hm : s.epoch.mode = .broken)
    (ha : s.gate.armed = none) :
    s.recoverPart = s.leftBroken.complete .done .none s.journal.positionData := by
  have ha' : s.leftBroken.gate.armed = none := by rw [State.leftBroken_gate, ha]
  rw [State.recoverPart_broken hm, State.examineRelease_of_not_armed ha']

theorem exec_recover {s : State} (hr : s.resetPhase = .running) (hc : s.mailbox.cmd = 0) :
    exec .recover s = .next (s.begun 0x0A).recoverPart :=
  runCommand_free hr hc 0x0A State.recoverPart

/-- Settles O43, by the mode. -/
theorem theRecoverCommand : Obligations.TheRecoverCommand := by
  intro s hr hc
  rw [exec_recover hr hc]
  refine ⟨fun hm => ?outside, fun hm ha => ?broken⟩
  case outside =>
    have hm' : (s.begun 0x0A).epoch.mode ≠ .broken := hm
    rw [State.recoverPart_outside hm', State.begun_reject]
  case broken =>
    have hm' : (s.begun 0x0A).epoch.mode = .broken := hm
    have ha' : (s.begun 0x0A).gate.armed = none := ha
    rw [State.recoverPart_broken_not_armed hm' ha', State.begun_leftBroken, State.begun_complete]
    rfl

end Sys2Proof.Machine
end

section
/-! PROOFS. READ_CHECKPOINTS: the codes of a checkpoint entry as the numbers of R183, the 20 bytes of an
entry, and O44. -/

namespace Sys2Proof.Machine

/-! ### The codes of a checkpoint entry (R183) -/

theorem Source.code_eq_sourceCode (src : Source) : src.code = sourceCode src := by
  cases src <;> rfl

theorem EntryState.code_eq_entryStateCode (e : EntryState) : e.code = entryStateCode e := by
  cases e <;> rfl

theorem Condition.code_eq_conditionCode (c : Condition) : c.code = conditionCode c := by
  cases c <;> rfl

/-- The 20 bytes of a checkpoint entry, with the codes as the numbers of R183 (R182). -/
theorem Checkpoint.bytes_eq (c : Checkpoint) :
    c.bytes =
      c.epoch % 2 ^ 48 + c.start % 2 ^ 64 * 2 ^ 48 + entryStateCode c.state * 2 ^ 112 +
        conditionCode c.condition * 2 ^ 116 + sourceCode c.openedBy * 2 ^ 120 +
        c.repeats % 2 ^ 32 * 2 ^ 128 := by
  rw [Checkpoint.bytes, EntryState.code_eq_entryStateCode, Condition.code_eq_conditionCode,
    Source.code_eq_sourceCode]

/-! ### The body of READ_CHECKPOINTS -/

/-- READ_CHECKPOINTS completes in the step that takes it, with the table as that step finds it (R144). -/
theorem State.begun_readTable (s : State) (code : Byte) :
    (s.begun code).readTable = s.finished code .done .none (checkpointData s.epoch) := by
  rw [State.readTable, State.begun_epoch, State.begun_complete]

theorem exec_readCheckpoints {s : State} (hr : s.resetPhase = .running) (hc : s.mailbox.cmd = 0) :
    exec .readCheckpoints s = .next (s.finished 0x0B .done .none (checkpointData s.epoch)) := by
  have htaken : exec .readCheckpoints s = .next (s.begun 0x0B).readTable :=
    runCommand_free hr hc 0x0B State.readTable
  rw [htaken, State.begun_readTable]

/-- Settles O44: the command finishes at once, and its result data spells the entries with the codes of
R183. -/
theorem theReadCheckpointsCommand : Obligations.TheReadCheckpointsCommand := by
  intro s hr hc
  rw [exec_readCheckpoints hr hc, checkpointData, funext Checkpoint.bytes_eq]

end Sys2Proof.Machine
end

section
/-! PROOFS. SET_POLICY: the codes of the unmapped modes, the checks of R164, the copying of the shadow values
outside JOURNALING, what the command's body does, and O41. -/

namespace Sys2Proof.Machine

/-! ### The codes and the checks of SET_POLICY -/

theorem Unmapped.code_eq_unmappedCode (u : Unmapped) : u.code = unmappedCode u := by
  cases u <;> rfl

/-- The mailbox reads back exactly the codes of the unmapped modes (R164, R165). -/
theorem unmappedOf_eq_some_iff {code : Nat} {u : Unmapped} :
    unmappedOf code = some u ↔ unmappedCode u = code := by
  constructor
  · intro h
    unfold unmappedOf at h
    split at h <;> cases h <;> rfl
  · rintro rfl
    cases u <;> rfl

/-- The parameters pass the checks, and name the unmapped mode `u`, when all three are in range (R164). -/
theorem policyCheck_eq_some_iff {p : PolicyParams} {u : Unmapped} :
    policyCheck p = some u ↔ unmappedCode u = p.unmapped ∧ p.faultEnable ≤ 1 ∧ p.faultDepth ≤ 3 := by
  unfold policyCheck
  split
  case isTrue hfault => simp [unmappedOf_eq_some_iff, hfault]
  case isFalse hfault => simp [hfault]

theorem policyCheck_eq_none_of_out_of_range {p : PolicyParams}
    (h : (∀ u : Unmapped, unmappedCode u ≠ p.unmapped) ∨ 1 < p.faultEnable ∨ 3 < p.faultDepth) :
    policyCheck p = none := by
  refine Option.eq_none_iff_forall_ne_some.mpr fun u hsome => ?_
  obtain ⟨hu, hen, hdep⟩ := policyCheck_eq_some_iff.mp hsome
  rcases h with hmode | hfault
  · exact hmode u hu
  · omega

/-! ### The body of SET_POLICY -/

theorem policyData_eq_policyFields (r : Regions) (p : Policy) : policyData r p = policyFields r p := by
  rw [policyData, policyFields, Unmapped.code_eq_unmappedCode, Unmapped.code_eq_unmappedCode]

/-- Outside JOURNALING the shadow values are copied at once, and nothing else changes (R45). -/
theorem State.copyIfIdle_eq (s : State) :
    s.copyIfIdle =
      { s with regions := if s.epoch.mode = .journaling then s.regions else s.regions.copied } := by
  unfold State.copyIfIdle
  split
  case h_1 hp => rw [if_neg (by simp [hp])]; rfl
  case h_2 hj => rw [if_pos hj]
  case h_3 hb => rw [if_neg (by simp [hb])]; rfl

/-- The region tables after SET_POLICY has set the shadow unmapped mode (R45, R164). -/
def State.regionsUnder (s : State) (u : Unmapped) : Regions :=
  if s.epoch.mode = .journaling then { s.regions with shadowUnmapped := u }
  else { s.regions with shadowUnmapped := u }.copied

/-- The policy that the parameters of SET_POLICY spell (R164). -/
def PolicyParams.policy (p : PolicyParams) : Policy := ⟨p.faultEnable == 1, p.faultDepth, p.fenceDelay⟩

theorem State.setPolicy_refused {s : State} (h : policyCheck (policyParams s.mailbox.copy) = none) :
    s.setPolicy = s.complete .rejected .badParam (policyFields s.regions s.policy) := by
  simp only [State.setPolicy, h, policyData_eq_policyFields]

theorem State.setPolicy_taken {s : State} {u : Unmapped}
    (h : policyCheck (policyParams s.mailbox.copy) = some u) :
    s.setPolicy =
      State.complete
        { s with regions := s.regionsUnder u, policy := (policyParams s.mailbox.copy).policy }
        .done .none (policyFields (s.regionsUnder u) (policyParams s.mailbox.copy).policy) := by
  simp only [State.setPolicy, h, policyData_eq_policyFields, State.copyIfIdle_eq]
  rfl

theorem exec_setPolicy {s : State} (hr : s.resetPhase = .running) (hc : s.mailbox.cmd = 0) :
    exec .setPolicy s = .next (s.begun 0x03).setPolicy :=
  runCommand_free hr hc 0x03 State.setPolicy

/-- Settles O41, by whether the parameters pass the checks of R164. -/
theorem theSetPolicyCommand : Obligations.TheSetPolicyCommand := by
  rintro s p hr hc rfl
  rw [exec_setPolicy hr hc]
  refine ⟨fun hout => ?refused, fun u r hu hen hdep hreg => ?taken⟩
  case refused =>
    have hcheck : policyCheck (policyParams (s.begun 0x03).mailbox.copy) = none :=
      policyCheck_eq_none_of_out_of_range hout
    rw [State.setPolicy_refused hcheck, State.begun_complete]
    rfl
  case taken =>
    have hcheck : policyCheck (policyParams (s.begun 0x03).mailbox.copy) = some u :=
      policyCheck_eq_some_iff.mpr ⟨hu, hen, hdep⟩
    rw [State.setPolicy_taken hcheck, hreg]
    rfl

end Sys2Proof.Machine
end

section
/-! PROOFS. The mailbox while a command runs: the refusal of a CMD write, the values that are no command code,
and O49. -/

namespace Sys2Proof.Machine

/-! ### CMD writes while a command runs -/

/-- A command written while another runs is answered BUSY: the code byte moves the port's index and pointer, a
COMMAND_DONE is queued, and nothing else changes (R162). -/
theorem runCommand_busy {s : State} (hr : s.resetPhase = .running) (hc : s.mailbox.cmd ≠ 0) (code : Byte)
    (body : State → State) :
    runCommand code body s =
      .next { s with
        i2c := { s.i2c with index := 0x04, pointer := 1 }
        events := s.events.offer s.epoch.counter (doneReport s.epoch.counter code .busy .none) } := by
  have hbusy : (s.select cmdIndex 1).mailbox.cmd ≠ 0 := hc
  rw [runCommand, whileRunning_running hr, State.takeCommand, if_neg hbusy]
  rfl

/-- Each command but ABORT is a CMD write of its code, with a body of its own (10.3, R160). -/
theorem exec_eq_runCommand_of_mem_commandCodes :
    ∀ x ∈ commandCodes, ∃ body, ∀ s, exec x.1 s = runCommand x.2 body s := by
  simp only [commandCodes, List.forall_mem_cons]
  exact ⟨⟨State.setJournal, fun _ => rfl⟩, ⟨State.setRegion, fun _ => rfl⟩,
    ⟨State.setPolicy, fun _ => rfl⟩, ⟨State.startJournaling, fun _ => rfl⟩,
    ⟨State.stopJournaling, fun _ => rfl⟩, ⟨State.sealEpoch, fun _ => rfl⟩,
    ⟨State.rollbackTo, fun _ => rfl⟩, ⟨State.verifyJournal, fun _ => rfl⟩,
    ⟨State.releaseFence, fun _ => rfl⟩, ⟨State.recoverPart, fun _ => rfl⟩,
    ⟨State.readTable, fun _ => rfl⟩, ⟨State.readRecordAt, fun _ => rfl⟩, List.forall_mem_nil _⟩

/-! ### Values that are no command code -/

theorem isCommandCode_eq_false_iff (v : Byte) :
    isCommandCode v = false ↔ 0x0C < v.toNat ∧ v.toNat ≠ 0x0F := by
  simp [isCommandCode, ← BitVec.toNat_inj]

/-- A value that is no command code is taken or refused as a command is; taken, it completes REJECTED (R160). -/
theorem State.cmdWritten_of_not_commandCode (s : State) {v : Byte} (hv : isCommandCode v = false) :
    s.cmdWritten v = s.takeCommand v State.rejectCode := by
  obtain ⟨hhigh, habort⟩ := (isCommandCode_eq_false_iff v).mp hv
  unfold State.cmdWritten
  split
  case h_15 => rfl
  all_goals omega

theorem exec_invalidCommandCode {v : Byte} (hv : isCommandCode v = false) (s : State) :
    exec (.invalidCommandCode v) s = runCommand v State.rejectCode s := by
  have htaken : (fun s : State => (s.select cmdIndex 1).cmdWritten v) =
      fun s => (s.select cmdIndex 1).takeCommand v State.rejectCode :=
    funext fun s => (s.select cmdIndex 1).cmdWritten_of_not_commandCode hv
  exact congrArg (whileRunning s) htaken

/-- Settles O49, by whether a command runs: every CMD write but ABORT's is a `runCommand`. -/
theorem theMailboxTakesOneCommand : Obligations.TheMailboxTakesOneCommand := by
  intro s v hr hv
  rw [exec_invalidCommandCode hv]
  refine ⟨fun hc => ⟨fun x hx => ?command, runCommand_busy hr hc v State.rejectCode⟩, fun hc => ?free⟩
  case command =>
    obtain ⟨body, hbody⟩ := exec_eq_runCommand_of_mem_commandCodes x hx
    rw [hbody, runCommand_busy hr hc]
  case free => rw [runCommand_free hr hc, State.rejectCode, State.begun_reject]

end Sys2Proof.Machine
end

section
/-! PROOFS. The step, its tick and the resets: what a tick counts and queues, the reset values, the ends of the
resets, and the part that a reset holds. O1, O2, O3, O4, O5, O54. -/

namespace Sys2Proof.Machine

set_option Elab.async false

/-! ### The step -/

theorem step_cons {s : State} {c : Instr} {rest : List Instr} (h : s.pending = c :: rest) :
    step s = exec c { s with pending := rest } := by
  simp only [step, h]

theorem step_nil {s : State} (h : s.pending = []) : step s = .next s.tick := by
  simp only [step, h]

/-- Settles O1: a step takes the front command off the queue and runs `exec` on the rest, which is `step`
unfolded. -/
theorem stepRunsTheCommandInFront : Obligations.StepRunsTheCommandInFront :=
  fun _ _ _ h => step_cons h

/-! ### The tick -/

theorem State.tick_running {s : State} (h : s.resetPhase = .running) :
    s.tick = { s.countTick with pending := s.pending ++ s.countTick.dueExpiries } := by
  simp only [State.tick, h]

theorem State.tick_held {s : State} (h : s.resetPhase ≠ .running) : s.tick = s := by
  unfold State.tick
  split
  case h_1 hr => exact absurd hr h
  case h_2 => rfl
  case h_3 => rfl

theorem Countdown.due_iff (c : Countdown) : c.due = true ↔ c = .running 0 := by
  cases c <;> simp [Countdown.due]

/-- The expiries that a tick queues are those of the timers with no tick left. -/
theorem State.mem_dueExpiries (s : State) (c : Instr) :
    c ∈ s.dueExpiries ↔
      (∃ o ∈ s.mport.outstanding, o.timer = 0 ∧ c = .responseTimeout o.ident) ∨
        (∃ w ∈ s.mport.withheld, w.timer = 0 ∧ c = .identifierWithholdExpiry w.ident) ∨
        (s.timer.countdown = .running 0 ∧ c = .epochTimerExpiry) ∨
        (s.gate.timer = some 0 ∧ c = .fenceReleaseTimerExpiry) := by
  simp only [State.dueExpiries, List.mem_append, List.mem_map, List.mem_filter, beq_iff_eq, or_assoc,
    and_assoc, eq_comm (b := c), List.mem_ite_nil_right, List.mem_singleton, Countdown.due_iff]

/-- Settles O2: the tick counts the timers, and `mem_dueExpiries` says what it queues. -/
theorem anIdleStepIsOneTick : Obligations.AnIdleStepIsOneTick := by
  intro s hr hp
  have hpend : s.tick.pending = s.countTick.dueExpiries := by rw [State.tick_running hr, hp]; rfl
  refine ⟨s.tick, step_nil hp, by rw [State.tick_running hr]; rfl, ?_⟩
  simp only [hpend, State.mem_dueExpiries]
  rw [State.tick_running hr]
  refine ⟨?countdown, rfl, rfl, rfl, rfl, rfl, ?_, ?_, ?_, ?_⟩
  case countdown => cases h : s.timer.countdown <;> simp [Countdown.tick, h]
  all_goals simp [eq_comm, and_comm]

/-! ### The resets -/

/-- At a RESET_N assertion a record IN_PROGRESS becomes INTERRUPTED, and no other record changes (R133). -/
theorem LastRecovery.interrupt_eq (r : LastRecovery) :
    r.interrupt = if r.outcome = .inProgress then { r with outcome := .interrupted } else r := by
  unfold LastRecovery.interrupt
  split
  case h_1 h => rw [if_pos h]
  case h_2 h => rw [if_neg h]

/-- After reset no region entry is valid, no journal is configured, and so every line is UNTRACKED (R55). -/
theorem State.reset_decodeLine (l : LineIndex) : State.reset.decodeLine l = .untracked := rfl

/-- Settles O3: the two resets are `resetTo`, and the values are those of `State.reset`. -/
theorem resetsGiveTheResetValues : Obligations.ResetsGiveTheResetValues := by
  refine ⟨?powerOn, ?resetN, ?again, ?inPowerOn, rfl, rfl, rfl, rfl, rfl, rfl, ?regions,
    State.reset_decodeLine, ?_⟩
  case powerOn => exact fun s => rfl
  case resetN =>
    intro s h
    rw [← LastRecovery.interrupt_eq]
    simp only [exec, execResetNAssert, h]
    rfl
  case again =>
    intro s h
    simp only [exec, execResetNAssert, h]
  case inPowerOn =>
    intro s low h
    simp only [exec, execResetNAssert, h]
  case regions =>
    intro e he mode base limit
    simp [State.reset, noRegions] at he
    simp [he]
  exact ⟨rfl, rfl, rfl, rfl, rfl, rfl, rfl, rfl, rfl, rfl, rfl, rfl, rfl, rfl, rfl, rfl⟩

theorem I2c.address_eq (i : I2c) :
    i.address = 0x2C#7 + (if i.addr1 then 2#7 else 0#7) + (if i.addr0 then 1#7 else 0#7) := by
  rcases i with ⟨a, b, _, _⟩
  cases a <;> cases b <;> rfl

/-- Settles O4, by the phase that the end of a reset finds. -/
theorem aResetEnds : Obligations.AResetEnds := by
  refine ⟨?_, I2c.address_eq⟩
  rintro s u a b f rfl
  refine ⟨fun h => ?_, fun h => ?_, fun h => ?_, fun h => ?_⟩
  all_goals
    constructor <;> simp only [exec, execResetNEnd, execPowerOnResetEnd, h, State.endReset]

/-! ### A part held by a reset -/

/-- Every row but the four of the resets is a step of a running part (R180). -/
theorem exec_eq_whileRunning {c : Instr} (h1 : c ≠ .powerOnReset) (h2 : c ≠ .resetNAssert)
    (h3 : ∀ a b f, c ≠ .resetNEnd a b f) (h4 : ∀ a b f, c ≠ .powerOnResetEnd a b f) :
    ∃ f, ∀ s, exec c s = whileRunning s f := by
  cases c
  case powerOnReset => exact absurd rfl h1
  case resetNAssert => exact absurd rfl h2
  case resetNEnd a b f => exact absurd rfl (h3 a b f)
  case powerOnResetEnd a b f => exact absurd rfl (h4 a b f)
  all_goals exact ⟨_, fun _ => rfl⟩

theorem State.acknowledges_held {s : State} (h : s.resetPhase ≠ .running) (address : BusAddress) :
    s.acknowledges address = false := by
  unfold State.acknowledges
  split
  case h_1 hr => exact absurd hr h
  case h_2 => rfl
  case h_3 => rfl

/-- Settles O5: such a command is a step of a running part, which this part is not. -/
theorem aHeldPartTakesNoStep : Obligations.AHeldPartTakesNoStep := by
  intro s h
  refine ⟨fun c h1 h2 h3 h4 => ?_, fun hp => ?_, fun address n => ?_⟩
  · obtain ⟨f, hf⟩ := exec_eq_whileRunning h1 h2 h3 h4
    rw [hf, whileRunning_held h]
  · rw [step_nil hp, State.tick_held h]
  · have hack := State.acknowledges_held h address
    exact ⟨hack, by simp only [State.readTransaction, hack, Bool.false_eq_true, if_false]⟩

/-! ### The invariants at reset -/

theorem State.reset_eventsOk : State.reset.events.Ok where
  next_range := by decide
  seq_range := List.forall_mem_nil _
  in_order := rfl
  bounded := by decide
  reserved := nofun

theorem State.reset_resourcesOk : State.reset.ResourcesOk where
  waq_bound := by decide
  capture_bound := by decide
  granted := .inr (List.forall_mem_nil _)
  slot_bound := by decide
  idents_used_once := .nil
  ltt_sorted := .nil
  ltt_sets _ := Nat.zero_le 4
  ages_sorted := .nil
  ages_past := List.forall_mem_nil _

theorem State.reset_modesOk : State.reset.ModesOk where
  no_epoch _ := ⟨rfl, rfl⟩
  no_operation _ := ⟨rfl, rfl, rfl⟩
  broken_fenced h := nomatch h
  release_fenced _ := ⟨rfl, rfl⟩
  fault_fenced _ h := nomatch h

theorem State.reset_commandOk : State.reset.CommandOk where
  running := by decide
  one_owner := by decide
  abort_needs_command h := nomatch h
  scan_runs := rfl
  engine_runs := rfl
  verify_commanded _ h := nomatch h
  phases _ h := nomatch h
  in_progress h := nomatch h

theorem State.reset_requestsOk : State.reset.RequestsOk where
  keys_once := .nil
  ready := .nil
  issued := .nil
  capturing := .nil
  heads := rfl
  writes := List.forall_mem_nil _

theorem State.reset_ledgerOk : State.reset.LedgerOk where
  positions := by decide
  depth := by decide
  table h := absurd h (by decide)
  starts := List.forall_mem_nil _
  passthrough _ := rfl
  no_capture _ := rfl
  reading := .nil
  records_once := .nil
  records_between := List.forall_mem_nil _
  rollback_holds h := absurd h (by decide)
  target _ h := nomatch h
  walking _ _ h := nomatch h
  restoring _ h := nomatch h

/-- Settles O54: each of the six invariants holds of the reset values. -/
theorem resetIsSound : Obligations.ResetIsSound :=
  ⟨State.reset_eventsOk, State.reset_resourcesOk, State.reset_modesOk, State.reset_commandOk,
    State.reset_requestsOk, State.reset_ledgerOk⟩

end Sys2Proof.Machine
end

section
/-! PROOFS. What each compound operation of the part leaves unchanged, one statement per operation. -/

namespace Sys2Proof.Machine

set_option Elab.async false

/-- A READY entry: its state and its FORWARD request (R61). -/
@[simp] theorem State.makeReady_fields (s : State) (t : Transaction) :
    (s.makeReady t).resetPhase = s.resetPhase ∧ (s.makeReady t).epoch = s.epoch ∧
    (s.makeReady t).journal = s.journal ∧ (s.makeReady t).regions = s.regions ∧
    (s.makeReady t).gate = s.gate ∧ (s.makeReady t).policy = s.policy ∧ (s.makeReady t).ltt = s.ltt ∧
    (s.makeReady t).captures = s.captures ∧ (s.makeReady t).ops = s.ops ∧ (s.makeReady t).timer = s.timer ∧
    (s.makeReady t).engine = s.engine ∧ (s.makeReady t).recovery = s.recovery ∧
    (s.makeReady t).scan = s.scan ∧ (s.makeReady t).inspect = s.inspect ∧
    (s.makeReady t).mport.outstanding = s.mport.outstanding ∧
    (s.makeReady t).mport.withheld = s.mport.withheld ∧ (s.makeReady t).mport.ageClock = s.mport.ageClock ∧
    (s.makeReady t).answers = s.answers ∧ (s.makeReady t).i2c = s.i2c ∧
    (s.makeReady t).mailbox = s.mailbox ∧ (s.makeReady t).events = s.events ∧
    (s.makeReady t).faultLevel = s.faultLevel ∧ (s.makeReady t).draws = s.draws ∧
    (s.makeReady t).pending = s.pending := by
  obtain ⟨_, _, h⟩ := (s.setWaqState t.requester t.tag .ready).joinForward_frame t
  rw [State.makeReady, h]
  simp

/-- The decision of a head (R59, R60). -/
@[simp] theorem State.settleHead_fields (s : State) (e : WaqEntry) :
    (s.settleHead e).resetPhase = s.resetPhase ∧ (s.settleHead e).epoch = s.epoch ∧
    (s.settleHead e).journal = s.journal ∧ (s.settleHead e).regions = s.regions ∧
    (s.settleHead e).gate = s.gate ∧ (s.settleHead e).policy = s.policy ∧ (s.settleHead e).ltt = s.ltt ∧
    (s.settleHead e).captures = s.captures ∧ (s.settleHead e).ops = s.ops ∧
    (s.settleHead e).timer = s.timer ∧ (s.settleHead e).engine = s.engine ∧
    (s.settleHead e).recovery = s.recovery ∧ (s.settleHead e).scan = s.scan ∧
    (s.settleHead e).inspect = s.inspect ∧ (s.settleHead e).mport.outstanding = s.mport.outstanding ∧
    (s.settleHead e).mport.withheld = s.mport.withheld ∧
    (s.settleHead e).mport.ageClock = s.mport.ageClock ∧ (s.settleHead e).i2c = s.i2c ∧
    (s.settleHead e).mailbox = s.mailbox ∧ (s.settleHead e).faultLevel = s.faultLevel ∧
    (s.settleHead e).draws = s.draws ∧ (s.settleHead e).pending = s.pending := by
  obtain ⟨_, _, _, _, h⟩ := s.settleHead_frame e
  rw [h]
  simp

/-- The decision of every head (R58). -/
@[simp] theorem State.advance_fields (s : State) :
    (s.advance).resetPhase = s.resetPhase ∧ (s.advance).epoch = s.epoch ∧ (s.advance).journal = s.journal ∧
    (s.advance).regions = s.regions ∧ (s.advance).gate = s.gate ∧ (s.advance).policy = s.policy ∧
    (s.advance).ltt = s.ltt ∧ (s.advance).captures = s.captures ∧ (s.advance).ops = s.ops ∧
    (s.advance).timer = s.timer ∧ (s.advance).engine = s.engine ∧ (s.advance).recovery = s.recovery ∧
    (s.advance).scan = s.scan ∧ (s.advance).inspect = s.inspect ∧
    (s.advance).mport.outstanding = s.mport.outstanding ∧ (s.advance).mport.withheld = s.mport.withheld ∧
    (s.advance).mport.ageClock = s.mport.ageClock ∧ (s.advance).i2c = s.i2c ∧
    (s.advance).mailbox = s.mailbox ∧ (s.advance).faultLevel = s.faultLevel ∧ (s.advance).draws = s.draws ∧
    (s.advance).pending = s.pending := by
  obtain ⟨_, _, _, _, h⟩ := s.advance_frame
  rw [h]
  simp

/-- The grants (R71). -/
@[simp] theorem State.grantCaptures_fields (s : State) :
    (s.grantCaptures).resetPhase = s.resetPhase ∧ (s.grantCaptures).epoch = s.epoch ∧
    (s.grantCaptures).journal = s.journal ∧ (s.grantCaptures).regions = s.regions ∧
    (s.grantCaptures).gate = s.gate ∧ (s.grantCaptures).policy = s.policy ∧ (s.grantCaptures).ltt = s.ltt ∧
    (s.grantCaptures).ops = s.ops ∧ (s.grantCaptures).timer = s.timer ∧
    (s.grantCaptures).engine = s.engine ∧ (s.grantCaptures).recovery = s.recovery ∧
    (s.grantCaptures).scan = s.scan ∧ (s.grantCaptures).inspect = s.inspect ∧
    (s.grantCaptures).mport.outstanding = s.mport.outstanding ∧
    (s.grantCaptures).mport.withheld = s.mport.withheld ∧
    (s.grantCaptures).mport.ageClock = s.mport.ageClock ∧ (s.grantCaptures).answers = s.answers ∧
    (s.grantCaptures).i2c = s.i2c ∧ (s.grantCaptures).mailbox = s.mailbox ∧
    (s.grantCaptures).events = s.events ∧ (s.grantCaptures).faultLevel = s.faultLevel ∧
    (s.grantCaptures).draws = s.draws ∧ (s.grantCaptures).pending = s.pending := by
  obtain ⟨_, _, _, h⟩ := s.grantCaptures_frame
  rw [h]
  simp

/-- The end of a step. -/
@[simp] theorem State.closeStep_fields (s : State) :
    (s.closeStep).resetPhase = s.resetPhase ∧ (s.closeStep).epoch = s.epoch ∧
    (s.closeStep).journal = s.journal ∧ (s.closeStep).regions = s.regions ∧ (s.closeStep).gate = s.gate ∧
    (s.closeStep).policy = s.policy ∧ (s.closeStep).ltt = s.ltt ∧ (s.closeStep).ops = s.ops ∧
    (s.closeStep).timer = s.timer ∧ (s.closeStep).engine = s.engine ∧ (s.closeStep).recovery = s.recovery ∧
    (s.closeStep).scan = s.scan ∧ (s.closeStep).inspect = s.inspect ∧
    (s.closeStep).mport.outstanding = s.mport.outstanding ∧
    (s.closeStep).mport.withheld = s.mport.withheld ∧ (s.closeStep).answers = s.answers ∧
    (s.closeStep).i2c = s.i2c ∧ (s.closeStep).mailbox = s.mailbox ∧ (s.closeStep).events = s.events ∧
    (s.closeStep).faultLevel = s.faultLevel ∧ (s.closeStep).draws = s.draws ∧
    (s.closeStep).pending = s.pending := by
  obtain ⟨_, _, _, h⟩ := s.closeStep_frame
  rw [h]
  simp

/-- The removals of R49. -/
@[simp] theorem State.fenceRemovals_fields (s : State) :
    (s.fenceRemovals).resetPhase = s.resetPhase ∧ (s.fenceRemovals).epoch = s.epoch ∧
    (s.fenceRemovals).journal = s.journal ∧ (s.fenceRemovals).regions = s.regions ∧
    (s.fenceRemovals).gate = s.gate ∧ (s.fenceRemovals).policy = s.policy ∧ (s.fenceRemovals).ltt = s.ltt ∧
    (s.fenceRemovals).captures = s.captures ∧ (s.fenceRemovals).ops = s.ops ∧
    (s.fenceRemovals).timer = s.timer ∧ (s.fenceRemovals).engine = s.engine ∧
    (s.fenceRemovals).recovery = s.recovery ∧ (s.fenceRemovals).scan = s.scan ∧
    (s.fenceRemovals).inspect = s.inspect ∧ (s.fenceRemovals).mport.outstanding = s.mport.outstanding ∧
    (s.fenceRemovals).mport.withheld = s.mport.withheld ∧
    (s.fenceRemovals).mport.ageClock = s.mport.ageClock ∧ (s.fenceRemovals).i2c = s.i2c ∧
    (s.fenceRemovals).mailbox = s.mailbox ∧ (s.fenceRemovals).faultLevel = s.faultLevel ∧
    (s.fenceRemovals).draws = s.draws ∧ (s.fenceRemovals).pending = s.pending := by
  rw [s.fenceRemovals_eq]
  simp

/-- The fence closes (R49, R50). -/
@[simp] theorem State.enterFence_fields (s : State) :
    (s.enterFence).resetPhase = s.resetPhase ∧ (s.enterFence).epoch = s.epoch ∧
    (s.enterFence).journal = s.journal ∧ (s.enterFence).regions = s.regions ∧
    (s.enterFence).policy = s.policy ∧ (s.enterFence).ltt = s.ltt ∧ (s.enterFence).captures = s.captures ∧
    (s.enterFence).ops = s.ops ∧ (s.enterFence).timer = s.timer ∧ (s.enterFence).engine = s.engine ∧
    (s.enterFence).recovery = s.recovery ∧ (s.enterFence).scan = s.scan ∧
    (s.enterFence).inspect = s.inspect ∧ (s.enterFence).mport.outstanding = s.mport.outstanding ∧
    (s.enterFence).mport.withheld = s.mport.withheld ∧ (s.enterFence).mport.ageClock = s.mport.ageClock ∧
    (s.enterFence).i2c = s.i2c ∧ (s.enterFence).mailbox = s.mailbox ∧
    (s.enterFence).faultLevel = s.faultLevel ∧ (s.enterFence).draws = s.draws ∧
    (s.enterFence).pending = s.pending := by
  by_cases h : s.gate.state = .fence
  · simp [State.enterFence_of_fence h]
  · simp [State.enterFence_of_open h]

/-- A hold opens (R48). -/
@[simp] theorem State.openHold_fields (s : State) :
    (s.openHold).resetPhase = s.resetPhase ∧ (s.openHold).epoch = s.epoch ∧
    (s.openHold).journal = s.journal ∧ (s.openHold).regions = s.regions ∧ (s.openHold).policy = s.policy ∧
    (s.openHold).ltt = s.ltt ∧ (s.openHold).captures = s.captures ∧ (s.openHold).ops = s.ops ∧
    (s.openHold).timer = s.timer ∧ (s.openHold).engine = s.engine ∧ (s.openHold).recovery = s.recovery ∧
    (s.openHold).scan = s.scan ∧ (s.openHold).inspect = s.inspect ∧
    (s.openHold).mport.outstanding = s.mport.outstanding ∧ (s.openHold).mport.withheld = s.mport.withheld ∧
    (s.openHold).mport.ageClock = s.mport.ageClock ∧ (s.openHold).i2c = s.i2c ∧
    (s.openHold).mailbox = s.mailbox ∧ (s.openHold).faultLevel = s.faultLevel ∧
    (s.openHold).draws = s.draws ∧ (s.openHold).pending = s.pending := by
  obtain ⟨_, _, _, _, h⟩ := s.openHold_frame
  rw [h]
  simp

/-- The fence opens (R52). -/
@[simp] theorem State.openFence_fields (s : State) :
    (s.openFence).resetPhase = s.resetPhase ∧ (s.openFence).epoch = s.epoch ∧
    (s.openFence).journal = s.journal ∧ (s.openFence).regions = s.regions ∧
    (s.openFence).policy = s.policy ∧ (s.openFence).waq = s.waq ∧ (s.openFence).ltt = s.ltt ∧
    (s.openFence).captures = s.captures ∧ (s.openFence).timer = s.timer ∧ (s.openFence).engine = s.engine ∧
    (s.openFence).recovery = s.recovery ∧ (s.openFence).scan = s.scan ∧ (s.openFence).inspect = s.inspect ∧
    (s.openFence).mport = s.mport ∧ (s.openFence).answers = s.answers ∧ (s.openFence).i2c = s.i2c ∧
    (s.openFence).mailbox = s.mailbox ∧ (s.openFence).faultLevel = s.faultLevel ∧
    (s.openFence).draws = s.draws ∧ (s.openFence).pending = s.pending := by
  simp [State.openFence]

/-- The release conditions are examined (R52). -/
@[simp] theorem State.examineRelease_fields (s : State) :
    (s.examineRelease).resetPhase = s.resetPhase ∧ (s.examineRelease).epoch = s.epoch ∧
    (s.examineRelease).journal = s.journal ∧ (s.examineRelease).regions = s.regions ∧
    (s.examineRelease).policy = s.policy ∧ (s.examineRelease).waq = s.waq ∧
    (s.examineRelease).ltt = s.ltt ∧ (s.examineRelease).captures = s.captures ∧
    (s.examineRelease).timer = s.timer ∧ (s.examineRelease).engine = s.engine ∧
    (s.examineRelease).recovery = s.recovery ∧ (s.examineRelease).scan = s.scan ∧
    (s.examineRelease).inspect = s.inspect ∧ (s.examineRelease).mport = s.mport ∧
    (s.examineRelease).answers = s.answers ∧ (s.examineRelease).i2c = s.i2c ∧
    (s.examineRelease).mailbox = s.mailbox ∧ (s.examineRelease).faultLevel = s.faultLevel ∧
    (s.examineRelease).draws = s.draws ∧ (s.examineRelease).pending = s.pending := by
  rcases s.examineRelease_cases with ⟨_, h⟩ | ⟨_, h⟩ <;> simp [h]

/-- A release sets *release armed* (R51). -/
@[simp] theorem State.armRelease_fields (s : State) (c : ReleaseCause) :
    (s.armRelease c).resetPhase = s.resetPhase ∧ (s.armRelease c).epoch = s.epoch ∧
    (s.armRelease c).journal = s.journal ∧ (s.armRelease c).regions = s.regions ∧
    (s.armRelease c).policy = s.policy ∧ (s.armRelease c).waq = s.waq ∧ (s.armRelease c).ltt = s.ltt ∧
    (s.armRelease c).captures = s.captures ∧ (s.armRelease c).ops = s.ops ∧
    (s.armRelease c).timer = s.timer ∧ (s.armRelease c).engine = s.engine ∧
    (s.armRelease c).recovery = s.recovery ∧ (s.armRelease c).scan = s.scan ∧
    (s.armRelease c).inspect = s.inspect ∧ (s.armRelease c).mport = s.mport ∧
    (s.armRelease c).answers = s.answers ∧ (s.armRelease c).i2c = s.i2c ∧
    (s.armRelease c).mailbox = s.mailbox ∧ (s.armRelease c).events = s.events ∧
    (s.armRelease c).faultLevel = s.faultLevel ∧ (s.armRelease c).draws = s.draws ∧
    (s.armRelease c).pending = s.pending := by
  unfold State.armRelease
  split <;> simp

/-- The command of the operation completes (R80, R161). -/
@[simp] theorem State.completeIf_fields (s : State) (b : Bool) (r : CommandResult) (w : Reason) (d : BitVec 768) :
    (s.completeIf b r w d).resetPhase = s.resetPhase ∧ (s.completeIf b r w d).epoch = s.epoch ∧
    (s.completeIf b r w d).journal = s.journal ∧ (s.completeIf b r w d).regions = s.regions ∧
    (s.completeIf b r w d).gate = s.gate ∧ (s.completeIf b r w d).policy = s.policy ∧
    (s.completeIf b r w d).waq = s.waq ∧ (s.completeIf b r w d).ltt = s.ltt ∧
    (s.completeIf b r w d).captures = s.captures ∧ (s.completeIf b r w d).timer = s.timer ∧
    (s.completeIf b r w d).engine = s.engine ∧ (s.completeIf b r w d).recovery = s.recovery ∧
    (s.completeIf b r w d).scan = s.scan ∧ (s.completeIf b r w d).inspect = s.inspect ∧
    (s.completeIf b r w d).mport = s.mport ∧ (s.completeIf b r w d).answers = s.answers ∧
    (s.completeIf b r w d).i2c = s.i2c ∧ (s.completeIf b r w d).faultLevel = s.faultLevel ∧
    (s.completeIf b r w d).draws = s.draws ∧ (s.completeIf b r w d).pending = s.pending := by
  simp [State.completeIf_eq]

/-- VERIFY ends before its scan end (R141). -/
@[simp] theorem State.stopScan_fields (s : State) (r : CommandResult) :
    (s.stopScan r).resetPhase = s.resetPhase ∧ (s.stopScan r).epoch = s.epoch ∧
    (s.stopScan r).journal = s.journal ∧ (s.stopScan r).regions = s.regions ∧
    (s.stopScan r).gate = s.gate ∧ (s.stopScan r).policy = s.policy ∧ (s.stopScan r).waq = s.waq ∧
    (s.stopScan r).ltt = s.ltt ∧ (s.stopScan r).captures = s.captures ∧ (s.stopScan r).timer = s.timer ∧
    (s.stopScan r).engine = s.engine ∧ (s.stopScan r).recovery = s.recovery ∧
    (s.stopScan r).inspect = s.inspect ∧ (s.stopScan r).mport.withheld = s.mport.withheld ∧
    (s.stopScan r).mport.ageClock = s.mport.ageClock ∧ (s.stopScan r).answers = s.answers ∧
    (s.stopScan r).i2c = s.i2c ∧ (s.stopScan r).faultLevel = s.faultLevel ∧
    (s.stopScan r).draws = s.draws ∧ (s.stopScan r).pending = s.pending := by
  cases h : s.scan with
  | none => simp [State.stopScan, h]
  | some sc =>
    obtain ⟨_, _, h'⟩ := s.stopScan_frame r sc h
    simp [h']

/-- An automatic seal request (R83, R85). -/
@[simp] theorem State.requestSeal_fields (s : State) (src : Source) :
    (s.requestSeal src).resetPhase = s.resetPhase ∧ (s.requestSeal src).epoch = s.epoch ∧
    (s.requestSeal src).journal = s.journal ∧ (s.requestSeal src).regions = s.regions ∧
    (s.requestSeal src).policy = s.policy ∧ (s.requestSeal src).ltt = s.ltt ∧
    (s.requestSeal src).captures = s.captures ∧ (s.requestSeal src).engine = s.engine ∧
    (s.requestSeal src).recovery = s.recovery ∧ (s.requestSeal src).inspect = s.inspect ∧
    (s.requestSeal src).mport.withheld = s.mport.withheld ∧
    (s.requestSeal src).mport.ageClock = s.mport.ageClock ∧ (s.requestSeal src).answers = s.answers ∧
    (s.requestSeal src).i2c = s.i2c ∧ (s.requestSeal src).faultLevel = s.faultLevel ∧
    (s.requestSeal src).draws = s.draws ∧ (s.requestSeal src).pending = s.pending := by
  unfold State.requestSeal
  split
  · split
    · simp
    · split <;> simp
  · simp

/-- The slot frees (R91). -/
@[simp] theorem State.freeSlot_fields (s : State) :
    (s.freeSlot).resetPhase = s.resetPhase ∧ (s.freeSlot).epoch = s.epoch ∧
    (s.freeSlot).journal = s.journal ∧ (s.freeSlot).regions = s.regions ∧ (s.freeSlot).policy = s.policy ∧
    (s.freeSlot).ltt = s.ltt ∧ (s.freeSlot).captures = s.captures ∧ (s.freeSlot).engine = s.engine ∧
    (s.freeSlot).recovery = s.recovery ∧ (s.freeSlot).scan = s.scan ∧ (s.freeSlot).inspect = s.inspect ∧
    (s.freeSlot).mport = s.mport ∧ (s.freeSlot).answers = s.answers ∧ (s.freeSlot).i2c = s.i2c ∧
    (s.freeSlot).mailbox = s.mailbox ∧ (s.freeSlot).events = s.events ∧
    (s.freeSlot).faultLevel = s.faultLevel ∧ (s.freeSlot).draws = s.draws ∧
    (s.freeSlot).pending = s.pending := by
  by_cases h : s.epoch.mode = .journaling
  · rcases State.freeSlot_journaling h with ⟨_, h'⟩ | ⟨_, _, h'⟩ <;> simp [h']
  · simp [State.freeSlot_outside h]

/-- A hold is given back (R50). -/
@[simp] theorem State.endHold_fields (s : State) (sl : Slot) :
    (s.endHold sl).resetPhase = s.resetPhase ∧ (s.endHold sl).epoch = s.epoch ∧
    (s.endHold sl).journal = s.journal ∧ (s.endHold sl).regions = s.regions ∧
    (s.endHold sl).policy = s.policy ∧ (s.endHold sl).ltt = s.ltt ∧ (s.endHold sl).captures = s.captures ∧
    (s.endHold sl).ops = s.ops ∧ (s.endHold sl).timer = s.timer ∧ (s.endHold sl).engine = s.engine ∧
    (s.endHold sl).recovery = s.recovery ∧ (s.endHold sl).scan = s.scan ∧
    (s.endHold sl).inspect = s.inspect ∧ (s.endHold sl).mport.outstanding = s.mport.outstanding ∧
    (s.endHold sl).mport.withheld = s.mport.withheld ∧ (s.endHold sl).mport.ageClock = s.mport.ageClock ∧
    (s.endHold sl).i2c = s.i2c ∧ (s.endHold sl).mailbox = s.mailbox ∧
    (s.endHold sl).faultLevel = s.faultLevel ∧ (s.endHold sl).draws = s.draws ∧
    (s.endHold sl).pending = s.pending := by
  obtain ⟨_, _, _, _, h⟩ := s.endHold_frame sl
  rw [h]
  simp

/-- A SEAL or STOP gives way to a rollback (R88). -/
@[simp] theorem State.preemptGather_fields (s : State) (sl : Slot) :
    (s.preemptGather sl).resetPhase = s.resetPhase ∧ (s.preemptGather sl).epoch = s.epoch ∧
    (s.preemptGather sl).journal = s.journal ∧ (s.preemptGather sl).regions = s.regions ∧
    (s.preemptGather sl).gate = s.gate ∧ (s.preemptGather sl).policy = s.policy ∧
    (s.preemptGather sl).waq = s.waq ∧ (s.preemptGather sl).ltt = s.ltt ∧
    (s.preemptGather sl).captures = s.captures ∧ (s.preemptGather sl).timer = s.timer ∧
    (s.preemptGather sl).engine = s.engine ∧ (s.preemptGather sl).recovery = s.recovery ∧
    (s.preemptGather sl).scan = s.scan ∧ (s.preemptGather sl).inspect = s.inspect ∧
    (s.preemptGather sl).mport = s.mport ∧ (s.preemptGather sl).answers = s.answers ∧
    (s.preemptGather sl).i2c = s.i2c ∧ (s.preemptGather sl).faultLevel = s.faultLevel ∧
    (s.preemptGather sl).draws = s.draws ∧ (s.preemptGather sl).pending = s.pending := by
  simp [State.preemptGather]

/-- The undecided writes are decided again (R62). -/
@[simp] theorem State.redecide_fields (s : State) :
    (s.redecide).resetPhase = s.resetPhase ∧ (s.redecide).epoch = s.epoch ∧
    (s.redecide).journal = s.journal ∧ (s.redecide).regions = s.regions ∧ (s.redecide).gate = s.gate ∧
    (s.redecide).policy = s.policy ∧ (s.redecide).ltt = s.ltt ∧ (s.redecide).captures = s.captures ∧
    (s.redecide).ops = s.ops ∧ (s.redecide).timer = s.timer ∧ (s.redecide).engine = s.engine ∧
    (s.redecide).recovery = s.recovery ∧ (s.redecide).scan = s.scan ∧ (s.redecide).inspect = s.inspect ∧
    (s.redecide).mport.outstanding = s.mport.outstanding ∧ (s.redecide).mport.withheld = s.mport.withheld ∧
    (s.redecide).mport.ageClock = s.mport.ageClock ∧ (s.redecide).i2c = s.i2c ∧
    (s.redecide).mailbox = s.mailbox ∧ (s.redecide).faultLevel = s.faultLevel ∧
    (s.redecide).draws = s.draws ∧ (s.redecide).pending = s.pending := by
  obtain ⟨_, _, _, _, h⟩ := s.redecide_frame
  rw [h]
  simp

/-- The epoch-open actions (R12). -/
@[simp] theorem State.epochOpen_fields (s : State) :
    (s.epochOpen).resetPhase = s.resetPhase ∧ (s.epochOpen).epoch = s.epoch ∧
    (s.epochOpen).journal = s.journal ∧ (s.epochOpen).gate = s.gate ∧ (s.epochOpen).policy = s.policy ∧
    (s.epochOpen).captures = s.captures ∧ (s.epochOpen).ops = s.ops ∧ (s.epochOpen).engine = s.engine ∧
    (s.epochOpen).recovery = s.recovery ∧ (s.epochOpen).scan = s.scan ∧ (s.epochOpen).inspect = s.inspect ∧
    (s.epochOpen).mport.outstanding = s.mport.outstanding ∧
    (s.epochOpen).mport.withheld = s.mport.withheld ∧ (s.epochOpen).mport.ageClock = s.mport.ageClock ∧
    (s.epochOpen).i2c = s.i2c ∧ (s.epochOpen).mailbox = s.mailbox ∧
    (s.epochOpen).faultLevel = s.faultLevel ∧ (s.epochOpen).draws = s.draws ∧
    (s.epochOpen).pending = s.pending := by
  obtain ⟨_, _, _, _, h⟩ := s.epochOpen_frame
  rw [h]
  simp

/-- The gate at the end of a rollback (R50). -/
@[simp] theorem State.endRollbackGate_fields (s : State) (sl : Slot) :
    (s.endRollbackGate sl).resetPhase = s.resetPhase ∧ (s.endRollbackGate sl).epoch = s.epoch ∧
    (s.endRollbackGate sl).journal = s.journal ∧ (s.endRollbackGate sl).regions = s.regions ∧
    (s.endRollbackGate sl).policy = s.policy ∧ (s.endRollbackGate sl).ltt = s.ltt ∧
    (s.endRollbackGate sl).captures = s.captures ∧ (s.endRollbackGate sl).ops = s.ops ∧
    (s.endRollbackGate sl).timer = s.timer ∧ (s.endRollbackGate sl).engine = s.engine ∧
    (s.endRollbackGate sl).recovery = s.recovery ∧ (s.endRollbackGate sl).scan = s.scan ∧
    (s.endRollbackGate sl).inspect = s.inspect ∧
    (s.endRollbackGate sl).mport.outstanding = s.mport.outstanding ∧
    (s.endRollbackGate sl).mport.withheld = s.mport.withheld ∧
    (s.endRollbackGate sl).mport.ageClock = s.mport.ageClock ∧ (s.endRollbackGate sl).i2c = s.i2c ∧
    (s.endRollbackGate sl).mailbox = s.mailbox ∧ (s.endRollbackGate sl).faultLevel = s.faultLevel ∧
    (s.endRollbackGate sl).draws = s.draws ∧ (s.endRollbackGate sl).pending = s.pending := by
  unfold State.endRollbackGate
  split
  · simp
  · split <;> simp

/-- A rollback leaves the slot (R91, R52). -/
@[simp] theorem State.leaveRollback_fields (s : State) :
    (s.leaveRollback).resetPhase = s.resetPhase ∧ (s.leaveRollback).epoch = s.epoch ∧
    (s.leaveRollback).journal = s.journal ∧ (s.leaveRollback).regions = s.regions ∧
    (s.leaveRollback).policy = s.policy ∧ (s.leaveRollback).ltt = s.ltt ∧
    (s.leaveRollback).captures = s.captures ∧ (s.leaveRollback).recovery = s.recovery ∧
    (s.leaveRollback).scan = s.scan ∧ (s.leaveRollback).inspect = s.inspect ∧
    (s.leaveRollback).mport = s.mport ∧ (s.leaveRollback).answers = s.answers ∧
    (s.leaveRollback).i2c = s.i2c ∧ (s.leaveRollback).mailbox = s.mailbox ∧
    (s.leaveRollback).faultLevel = s.faultLevel ∧ (s.leaveRollback).draws = s.draws ∧
    (s.leaveRollback).pending = s.pending := by
  simp [State.leaveRollback]

/-- A capture ends in a refusal (R74, R75, R76). -/
@[simp] theorem State.endCapture_fields (s : State) (t : Transaction) (k : EventKind) :
    (s.endCapture t k).resetPhase = s.resetPhase ∧ (s.endCapture t k).epoch = s.epoch ∧
    (s.endCapture t k).journal = s.journal ∧ (s.endCapture t k).regions = s.regions ∧
    (s.endCapture t k).gate = s.gate ∧ (s.endCapture t k).policy = s.policy ∧
    (s.endCapture t k).ltt = s.ltt ∧ (s.endCapture t k).ops = s.ops ∧ (s.endCapture t k).timer = s.timer ∧
    (s.endCapture t k).engine = s.engine ∧ (s.endCapture t k).recovery = s.recovery ∧
    (s.endCapture t k).scan = s.scan ∧ (s.endCapture t k).inspect = s.inspect ∧
    (s.endCapture t k).mport.outstanding = s.mport.outstanding ∧
    (s.endCapture t k).mport.withheld = s.mport.withheld ∧
    (s.endCapture t k).mport.ageClock = s.mport.ageClock ∧ (s.endCapture t k).i2c = s.i2c ∧
    (s.endCapture t k).mailbox = s.mailbox ∧ (s.endCapture t k).faultLevel = s.faultLevel ∧
    (s.endCapture t k).draws = s.draws ∧ (s.endCapture t k).pending = s.pending := by
  obtain ⟨_, _, _, _, _, h⟩ := s.endCapture_frame t k
  rw [h]
  simp

/-- A line write of a record is requested (R28). -/
@[simp] theorem State.writeLine_fields (s : State) (r : Record) (l : RecordLine) (n : Nat) :
    (s.writeLine r l n).resetPhase = s.resetPhase ∧ (s.writeLine r l n).epoch = s.epoch ∧
    (s.writeLine r l n).journal = s.journal ∧ (s.writeLine r l n).regions = s.regions ∧
    (s.writeLine r l n).gate = s.gate ∧ (s.writeLine r l n).policy = s.policy ∧
    (s.writeLine r l n).waq = s.waq ∧ (s.writeLine r l n).ltt = s.ltt ∧ (s.writeLine r l n).ops = s.ops ∧
    (s.writeLine r l n).timer = s.timer ∧ (s.writeLine r l n).engine = s.engine ∧
    (s.writeLine r l n).recovery = s.recovery ∧ (s.writeLine r l n).scan = s.scan ∧
    (s.writeLine r l n).inspect = s.inspect ∧ (s.writeLine r l n).mport.outstanding = s.mport.outstanding ∧
    (s.writeLine r l n).mport.withheld = s.mport.withheld ∧
    (s.writeLine r l n).mport.ageClock = s.mport.ageClock ∧ (s.writeLine r l n).answers = s.answers ∧
    (s.writeLine r l n).i2c = s.i2c ∧ (s.writeLine r l n).mailbox = s.mailbox ∧
    (s.writeLine r l n).events = s.events ∧ (s.writeLine r l n).faultLevel = s.faultLevel ∧
    (s.writeLine r l n).draws = s.draws ∧ (s.writeLine r l n).pending = s.pending := by
  cases l <;> simp [State.writeLine]

end Sys2Proof.Machine
end

section
/-! PROOFS. The refusals among the decisions of heads: which answers and events a decision adds. -/

namespace Sys2Proof.Machine

set_option Elab.async false

/-- The event of a write refused because its line is FENCED (R43). -/
def writeRefusal (counter : Nat) (t : Transaction) : Report :=
  ⟨.writeRefused, t.requester, counter, t.line.setWidth 64, 1⟩

/-- The answer ERROR to a transaction (R39). -/
def errorAnswer (t : Transaction) : Answer := ⟨t.requester, t.tag, .error⟩

@[simp] theorem writeRefusal_kind (counter : Nat) (t : Transaction) :
    (writeRefusal counter t).kind = .writeRefused := rfl

/-- From `s` to `t` these writes were refused with WRITE_REFUSED, in this order, and nothing else was answered
or reported. -/
def Refuses (s t : State) (refused : List Transaction) : Prop :=
  t.answers = s.answers ++ refused.map errorAnswer ∧
    t.events = s.events.offers s.epoch.counter (refused.map (writeRefusal s.epoch.counter))

theorem Refuses.of_eq {s t : State} (ha : t.answers = s.answers) (he : t.events = s.events) :
    Refuses s t [] := by simp [Refuses, ha, he]

theorem Refuses.trans {s t u : State} {l m : List Transaction} (h : Refuses s t l) (h' : Refuses t u m)
    (hc : t.epoch.counter = s.epoch.counter) : Refuses s u (l ++ m) := by
  obtain ⟨ha, he⟩ := h
  obtain ⟨ha', he'⟩ := h'
  simp [Refuses, ha', he', ha, he, hc, Events.offers_append]

/-- Refusals do not depend on what changes beside the counter, the answers and the events. -/
theorem Refuses.congr {s s' t t' : State} {l : List Transaction} (h : Refuses s t l)
    (hc : s'.epoch.counter = s.epoch.counter) (ha : s'.answers = s.answers) (he : s'.events = s.events)
    (ha' : t'.answers = t.answers) (he' : t'.events = t.events) : Refuses s' t' l := by
  simpa [Refuses, hc, ha, he, ha', he'] using h

theorem Refuses.events {s t : State} {l : List Transaction} (h : Refuses s t l) :
    ∃ refusals : List Report, (∀ x ∈ refusals, x.kind = .writeRefused) ∧
      t.events = s.events.offers s.epoch.counter refusals := by
  refine ⟨_, ?_, h.2⟩
  simp

theorem Refuses.answers {s t : State} {l : List Transaction} (h : Refuses s t l) :
    ∃ answers, t.answers = s.answers ++ answers := ⟨_, h.1⟩

theorem State.makeReady_refuses (s : State) (t : Transaction) : Refuses s (s.makeReady t) [] :=
  .of_eq (by simp) (by simp)

/-- What the decision of a write can do: refuse it, leave it READY, or leave it waiting for a capture (R60). -/
theorem State.decideWrite_cases (s : State) (t : Transaction) :
    (s.decodeLine t.line = .fenced ∧ s.decideWrite t = (s.removeWaq t.requester t.tag).refuse t) ∨
      ((s.decodeLine t.line = .untracked ∨
          (s.decodeLine t.line = .tracked ∧ (s.epoch.mode ≠ .journaling ∨ t.line ∈ s.ltt))) ∧
        s.decideWrite t = s.makeReady t) ∨
      (s.decodeLine t.line = .tracked ∧ s.epoch.mode = .journaling ∧ t.line ∉ s.ltt ∧
        s.decideWrite t = s.setWaqState t.requester t.tag .captureWait) := by
  have hhit : s.lttHit t.line = true ↔ t.line ∈ s.ltt := List.contains_iff_mem
  cases hd : s.decodeLine t.line
  case fenced => exact .inl ⟨rfl, by simp only [State.decideWrite, hd]⟩
  case untracked => exact .inr (.inl ⟨.inl rfl, by simp only [State.decideWrite, hd]⟩)
  case tracked =>
    by_cases hm : s.epoch.mode = .journaling
    · by_cases hl : t.line ∈ s.ltt
      · exact .inr (.inl ⟨.inr ⟨rfl, .inr hl⟩, by simp only [State.decideWrite, hd, hm, hhit, hl, if_true]⟩)
      · exact .inr (.inr ⟨rfl, hm, hl, by simp only [State.decideWrite, hd, hm, hhit, hl, if_true, if_false]⟩)
    · exact .inr (.inl ⟨.inr ⟨rfl, .inl hm⟩, by simp only [State.decideWrite, hd, hm, if_false]⟩)

theorem State.settleHead_write (s : State) {e : WaqEntry} (h : e.txn.kind = .write) :
    s.settleHead e = s.decideWrite e.txn := by simp only [State.settleHead, h]

theorem State.settleHead_read (s : State) {e : WaqEntry} (h : e.txn.kind = .read) :
    s.settleHead e = s.makeReady e.txn := by simp only [State.settleHead, h]

/-- The three things the decision of a head can do: refuse a write, make the entry READY, or leave a write
waiting for a capture (R59, R60). -/
theorem State.settleHead_cases (s : State) (e : WaqEntry) :
    (e.txn.kind = .write ∧ s.decodeLine e.line = .fenced ∧
        s.settleHead e = (s.removeWaq e.txn.requester e.txn.tag).refuse e.txn) ∨
      ((e.txn.kind = .write → s.decodeLine e.line = .untracked ∨
          (s.decodeLine e.line = .tracked ∧ (s.epoch.mode ≠ .journaling ∨ e.line ∈ s.ltt))) ∧
        s.settleHead e = s.makeReady e.txn) ∨
      (e.txn.kind = .write ∧ s.decodeLine e.line = .tracked ∧ s.epoch.mode = .journaling ∧
        e.line ∉ s.ltt ∧ s.settleHead e = s.setWaqState e.txn.requester e.txn.tag .captureWait) := by
  cases hk : e.txn.kind
  case read =>
    exact .inr (.inl ⟨nofun, s.settleHead_read hk⟩)
  case write =>
    rw [s.settleHead_write hk]
    rcases s.decideWrite_cases e.txn with ⟨hd, h⟩ | ⟨hd, h⟩ | ⟨hd, hm, hl, h⟩
    · exact .inl ⟨rfl, hd, h⟩
    · exact .inr (.inl ⟨fun _ => hd, h⟩)
    · exact .inr (.inr ⟨rfl, hd, hm, hl, h⟩)

/-- The decision of a head refuses its write or nothing. -/
theorem State.settleHead_refuses (s : State) (e : WaqEntry) :
    ∃ l, (∀ t ∈ l, s.decodeLine t.line = .fenced) ∧ Refuses s (s.settleHead e) l := by
  rcases s.settleHead_cases e with ⟨hk, hd, h⟩ | ⟨-, h⟩ | ⟨-, -, -, -, h⟩
  · refine ⟨[e.txn], ?_, ?_⟩
    · intro t ht
      cases List.mem_singleton.mp ht
      exact hd
    · rw [h]
      simp [Refuses, refusalKind, hk, errorAnswer, writeRefusal]
  · exact ⟨[], by simp, by rw [h]; exact s.makeReady_refuses e.txn⟩
  · exact ⟨[], by simp, by rw [h]; exact .of_eq rfl rfl⟩

theorem State.decodeLine_congr {s t : State} (hj : t.journal = s.journal) (hr : t.regions = s.regions)
    (l : LineIndex) : t.decodeLine l = s.decodeLine l := by
  simp only [State.decodeLine, hj, hr]

theorem State.advanceBy_refuses (n : Nat) : ∀ s : State,
    ∃ l, (∀ t ∈ l, s.decodeLine t.line = .fenced) ∧ Refuses s (s.advanceBy n) l := by
  induction n with
  | zero => exact fun s => ⟨[], by simp, .of_eq rfl rfl⟩
  | succ n ih =>
    intro s
    unfold State.advanceBy
    split
    · exact ⟨[], by simp, .of_eq rfl rfl⟩
    · rename_i e _
      obtain ⟨l, hl, hr⟩ := s.settleHead_refuses e
      obtain ⟨m, hm, hr'⟩ := ih (s.settleHead e)
      refine ⟨l ++ m, fun t ht => ?_, hr.trans hr' (by simp)⟩
      rcases List.mem_append.mp ht with ht | ht
      · exact hl t ht
      · exact (State.decodeLine_congr (by simp) (by simp) _).symm.trans (hm t ht)

/-- The decision of every head refuses writes of FENCED lines alone (R43, R58). -/
theorem State.advance_refuses (s : State) :
    ∃ l, (∀ t ∈ l, s.decodeLine t.line = .fenced) ∧ Refuses s s.advance l :=
  s.advanceBy_refuses _

theorem State.openHold_refuses (s : State) : ∃ l, Refuses s s.openHold l := by
  obtain ⟨l, -, h⟩ := State.advance_refuses { s with
    gate := { s.gate with state := .pass }
    waq := s.waq.map fun e => if e.state = .parked then { e with state := .waiting } else e }
  exact ⟨l, h⟩

theorem State.endHold_refuses (s : State) (sl : Slot) : ∃ l, Refuses s (s.endHold sl) l := by
  unfold State.endHold
  split
  · exact s.openHold_refuses
  · exact ⟨[], .of_eq rfl rfl⟩

theorem State.endRollbackGate_refuses (s : State) (sl : Slot) : ∃ l, Refuses s (s.endRollbackGate sl) l := by
  unfold State.endRollbackGate
  split
  · exact ⟨[], .of_eq rfl rfl⟩
  · split
    · exact s.openHold_refuses
    · exact ⟨[], .of_eq rfl rfl⟩

theorem State.redecide_refuses (s : State) : ∃ l, Refuses s s.redecide l := by
  obtain ⟨l, -, h⟩ := State.advance_refuses { s with
    waq := s.waq.map fun e => if e.undecides then { e with state := .waiting } else e
    mport := { s.mport with
      waiting := s.mport.waiting.filter fun r => !s.waq.any fun e => e.undecides && e.owns r } }
  exact ⟨l, h⟩

theorem State.epochOpen_refuses (s : State) : ∃ l, Refuses s s.epochOpen l := by
  obtain ⟨l, h⟩ := State.redecide_refuses (State.loadTimer (State.copyRegions { s with ltt := [] }))
  exact ⟨l, h⟩

/-- A capture that ends in a refusal answers its write first, with an event of this kind (R74, R75, R76). -/
theorem State.endCapture_refuses (s : State) (t : Transaction) (k : EventKind) :
    ∃ l, (∀ x ∈ l, s.decodeLine x.line = .fenced) ∧
      Refuses ((s.answer t.requester t.tag .error).reportLine k t.requester t.line) (s.endCapture t k) l := by
  obtain ⟨l, hl, h⟩ := State.advance_refuses (State.freeReading
    (((s.removeWaq t.requester t.tag).answer t.requester t.tag .error).reportLine k t.requester t.line)
    t.requester t.tag)
  have hf := State.freeReading_frame
    (((s.removeWaq t.requester t.tag).answer t.requester t.tag .error).reportLine k t.requester t.line)
    t.requester t.tag
  obtain ⟨_, _, _, hf⟩ := hf
  refine ⟨l, fun x hx => ?_, h.congr ?_ ?_ ?_ rfl rfl⟩
  · exact (State.decodeLine_congr (by rw [hf]; rfl) (by rw [hf]; rfl) _).symm.trans (hl x hx)
  all_goals rw [hf]; rfl

end Sys2Proof.Machine
end

section
/-! PROOFS. The case analysis over a step, once: what has to be shown of each command's meaning for every step to
lead from states with one property to states with another. -/

namespace Sys2Proof.Machine

set_option Elab.async false

/-- The mailbox has taken a command with its copy of PARAM (R160). -/
def State.taken (s : State) (code : Byte) : State :=
  { s with mailbox := { s.mailbox with cmd := code, copy := s.mailbox.param } }

/-- Each meaning of a command leads from the states of `I` to states of `J`. A mailbox command is taken while no
command runs, under a code that is not 0. -/
structure StepKeeps (I J : State → Prop) : Prop where
  keep : ∀ {s}, I s → J s
  pending : ∀ {s} p, I s → I { s with pending := p }
  select : ∀ {s} i n, I s → I (s.select i n)
  tick : ∀ {s} p, I s → J { s.countTick with pending := p }
  reset : ∀ (s : State) phase (recovery : LastRecovery), recovery.outcome ≠ .inProgress → J (s.resetTo phase recovery)
  phase : ∀ {s} p, I s → J { s with resetPhase := p }
  endReset : ∀ {s} p a b f, I s → J (s.endReset p a b f)
  acceptTransaction : ∀ {s} t, I s → J (s.acceptTransaction t)
  grant : ∀ {s} i tie, I s → J (s.grant i tie)
  portAnswer : ∀ {s} i a, I s → J (s.portAnswer i a)
  timeOut : ∀ {s} i, I s → J (s.timeOut i)
  freeIdent : ∀ {s} i, I s → J (s.freeIdent i)
  epochTimerExpiry : ∀ {s}, I s → J s.epochTimerExpiry
  gatherEnds : ∀ {s}, I s → J s.gatherEnds
  drainEnds : ∀ {s}, I s → J s.drainEnds
  faultRises : ∀ {s}, I s → J s.faultRises
  faultFalls : ∀ {s}, I s → J s.faultFalls
  fenceTimerExpires : ∀ {s}, I s → J s.fenceTimerExpires
  refuseCommand : ∀ {s} code, I s → J (s.refuseCommand code)
  setJournal : ∀ {s code}, I s → s.mailbox.cmd = 0 → code ≠ 0 → J (s.taken code).setJournal
  setRegion : ∀ {s code}, I s → s.mailbox.cmd = 0 → code ≠ 0 → J (s.taken code).setRegion
  setPolicy : ∀ {s code}, I s → s.mailbox.cmd = 0 → code ≠ 0 → J (s.taken code).setPolicy
  startJournaling : ∀ {s code}, I s → s.mailbox.cmd = 0 → code ≠ 0 → J (s.taken code).startJournaling
  stopJournaling : ∀ {s code}, I s → s.mailbox.cmd = 0 → code ≠ 0 → J (s.taken code).stopJournaling
  sealEpoch : ∀ {s code}, I s → s.mailbox.cmd = 0 → code ≠ 0 → J (s.taken code).sealEpoch
  rollbackTo : ∀ {s code}, I s → s.mailbox.cmd = 0 → code ≠ 0 → J (s.taken code).rollbackTo
  verifyJournal : ∀ {s code}, I s → s.mailbox.cmd = 0 → code ≠ 0 → J (s.taken code).verifyJournal
  releaseFence : ∀ {s code}, I s → s.mailbox.cmd = 0 → code ≠ 0 → J (s.taken code).releaseFence
  recoverPart : ∀ {s code}, I s → s.mailbox.cmd = 0 → code ≠ 0 → J (s.taken code).recoverPart
  readTable : ∀ {s code}, I s → s.mailbox.cmd = 0 → code ≠ 0 → J (s.taken code).readTable
  readRecordAt : ∀ {s code}, I s → s.mailbox.cmd = 0 → code ≠ 0 → J (s.taken code).readRecordAt
  rejectCode : ∀ {s code}, I s → s.mailbox.cmd = 0 → code ≠ 0 → J (s.taken code).rejectCode
  abortWritten : ∀ {s}, I s → J s.abortWritten
  writeTimerCtl : ∀ {s} bytes, I s → J (s.writeTimerCtl bytes)
  writeEventAck : ∀ {s} bytes, I s → J (s.writeEventAck bytes)
  writeAlertMask : ∀ {s} bytes, I s → J (s.writeAlertMask bytes)
  writeParam : ∀ {s} param, I s → J { s with mailbox := { s.mailbox with param := param } }

theorem LastRecovery.interrupt_ne_inProgress (r : LastRecovery) : r.interrupt.outcome ≠ .inProgress := by
  rw [r.interrupt_eq]
  split
  · exact nofun
  · assumption

namespace StepKeeps

variable {I J : State → Prop} {s t : State} (k : StepKeeps I J)

include k

theorem whileRunning {f : State → State} (hf : ∀ {s}, I s → J (f s)) (h : I s)
    (ht : Machine.whileRunning s f = .next t) : J t := by
  unfold Machine.whileRunning at ht
  split at ht <;> cases ht
  · exact hf h
  · exact k.keep h
  · exact k.keep h

theorem takeCommand {code : Byte} (hcode : code ≠ 0) {body : State → State}
    (hb : ∀ {s code}, I s → s.mailbox.cmd = 0 → code ≠ 0 → J (body (s.taken code))) (h : I s) :
    J (s.takeCommand code body) := by
  unfold State.takeCommand
  split
  case isTrue hc => exact hb h hc hcode
  case isFalse => exact k.refuseCommand code h

theorem runCommand {code : Byte} (hcode : code ≠ 0) {body : State → State}
    (hb : ∀ {s code}, I s → s.mailbox.cmd = 0 → code ≠ 0 → J (body (s.taken code))) (h : I s)
    (ht : Machine.runCommand code body s = .next t) : J t :=
  k.whileRunning (fun h => k.takeCommand hcode hb (k.select _ _ h)) h ht

theorem cmdWritten (value : Byte) (h : I s) : J (s.cmdWritten value) := by
  by_cases hz : value = 0
  · subst hz
    exact k.keep h
  · unfold State.cmdWritten
    split
    · exact k.keep h
    · exact k.takeCommand hz k.setJournal h
    · exact k.takeCommand hz k.setRegion h
    · exact k.takeCommand hz k.setPolicy h
    · exact k.takeCommand hz k.startJournaling h
    · exact k.takeCommand hz k.stopJournaling h
    · exact k.takeCommand hz k.sealEpoch h
    · exact k.takeCommand hz k.rollbackTo h
    · exact k.takeCommand hz k.verifyJournal h
    · exact k.takeCommand hz k.releaseFence h
    · exact k.takeCommand hz k.recoverPart h
    · exact k.takeCommand hz k.readTable h
    · exact k.takeCommand hz k.readRecordAt h
    · exact k.abortWritten h
    · exact k.takeCommand hz k.rejectCode h

theorem writeTransaction (target : WriteTarget) (bytes : List Byte) (h : I s) :
    J (s.writeTransaction target bytes) := by
  unfold State.writeTransaction
  split
  case isFalse => exact k.keep h
  case isTrue =>
    have hs : I (s.select target.index bytes.length) := k.select _ _ h
    unfold State.writeRegister
    split
    · exact k.keep hs
    · exact k.writeTimerCtl _ hs
    · exact k.cmdWritten _ hs
    · exact k.writeParam _ hs
    · exact k.writeEventAck _ hs
    · exact k.writeAlertMask _ hs
    · exact k.keep hs

theorem exec {c : Instr} (h : I s) (ht : Machine.exec c s = .next t) : J t := by
  cases c with
  | pTransactionAccept x => exact k.whileRunning (k.acceptTransaction x) h ht
  | arbiterGrant i n => exact k.whileRunning (k.grant i n) h ht
  | mPortAnswer i a => exact k.whileRunning (k.portAnswer i a) h ht
  | responseTimeout i => exact k.whileRunning (k.timeOut i) h ht
  | identifierWithholdExpiry i => exact k.whileRunning (k.freeIdent i) h ht
  | epochTimerExpiry => exact k.whileRunning k.epochTimerExpiry h ht
  | gatherEnd => exact k.whileRunning k.gatherEnds h ht
  | drainEnd => exact k.whileRunning k.drainEnds h ht
  | faultEdge => exact k.whileRunning k.faultRises h ht
  | faultLevelFall => exact k.whileRunning k.faultFalls h ht
  | fenceReleaseTimerExpiry => exact k.whileRunning k.fenceTimerExpires h ht
  | powerOnReset =>
    cases ht
    exact k.reset s _ .cleared nofun
  | resetNAssert =>
    simp only [Machine.exec, execResetNAssert] at ht
    split at ht <;> cases ht
    · exact k.reset s _ _ s.recovery.interrupt_ne_inProgress
    · exact k.keep h
    · exact k.phase _ h
  | resetNEnd a b f =>
    simp only [Machine.exec, execResetNEnd] at ht
    split at ht <;> cases ht
    · exact k.endReset _ a b f h
    · exact k.keep h
    · exact k.endReset _ a b f h
    · exact k.keep h
  | powerOnResetEnd a b f =>
    simp only [Machine.exec, execPowerOnResetEnd] at ht
    split at ht <;> cases ht
    · exact k.endReset _ a b f h
    · exact k.endReset _ a b f h
    · exact k.keep h
    · exact k.keep h
  | setJournal => exact k.runCommand (by decide) k.setJournal h ht
  | setRegion => exact k.runCommand (by decide) k.setRegion h ht
  | setPolicy => exact k.runCommand (by decide) k.setPolicy h ht
  | start => exact k.runCommand (by decide) k.startJournaling h ht
  | stop => exact k.runCommand (by decide) k.stopJournaling h ht
  | rollback => exact k.runCommand (by decide) k.rollbackTo h ht
  | verify => exact k.runCommand (by decide) k.verifyJournal h ht
  | release => exact k.runCommand (by decide) k.releaseFence h ht
  | recover => exact k.runCommand (by decide) k.recoverPart h ht
  | readCheckpoints => exact k.runCommand (by decide) k.readTable h ht
  | readRecord => exact k.runCommand (by decide) k.readRecordAt h ht
  | abort => exact k.whileRunning (fun h => k.abortWritten (k.select _ _ h)) h ht
  | invalidCommandCode v => exact k.whileRunning (fun h => k.cmdWritten v (k.select _ _ h)) h ht
  | timerCtlWrite bs => exact k.whileRunning (fun h => k.writeTimerCtl bs (k.select _ _ h)) h ht
  | eventAck bs => exact k.whileRunning (fun h => k.writeEventAck bs (k.select _ _ h)) h ht
  | alertMaskWrite bs => exact k.whileRunning (fun h => k.writeAlertMask bs (k.select _ _ h)) h ht
  | registerWrite target bs => exact k.whileRunning (k.writeTransaction target bs) h ht
  | _ => exact k.runCommand (by decide) k.sealEpoch h ht

/-- Every step leads from the states of `I` to states of `J`. -/
theorem step (h : I s) (ht : Machine.step s = .next t) : J t := by
  cases hp : s.pending with
  | nil =>
    rw [step_nil hp] at ht
    cases ht
    unfold State.tick
    split
    · exact k.tick _ h
    · exact k.keep h
    · exact k.keep h
  | cons c rest =>
    rw [step_cons hp] at ht
    exact k.exec (k.pending rest h) ht

end StepKeeps

end Sys2Proof.Machine
end

section
/-! PROOFS. The Event Queue: its numbering, what offers and acknowledges keep of it, and that every operation of
the part changes it by offers alone. O55. -/

namespace Sys2Proof.Machine

set_option Elab.async false

/-! ### The numbering of the queue -/

theorem consecutive_concat (next : Nat) (q : List Event) (e : Event) :
    consecutive next (q ++ [e]) = (consecutive e.seq q && nextSeqAfter e.seq == next) := by
  induction q with
  | nil => simp [consecutive]
  | cons d rest ih =>
    cases rest with
    | nil => simp [consecutive]
    | cons c rest =>
      rw [List.cons_append] at ih
      simp [consecutive, ih, Bool.and_assoc]

theorem consecutive_of_cons {next : Nat} {e : Event} {q : List Event}
    (h : consecutive next (e :: q) = true) : consecutive next q = true := by
  cases q with
  | nil => rfl
  | cons d rest => exact (Bool.and_eq_true_iff.mp h).2

theorem nextSeqAfter_range {n : Nat} (h : 1 ≤ n ∧ n ≤ 65535) :
    1 ≤ nextSeqAfter n ∧ nextSeqAfter n ≤ 65535 := by
  unfold nextSeqAfter
  split <;> omega

theorem modifyNewest_concat (f : Event → Event) (q : List Event) (e : Event) :
    modifyNewest f (q ++ [e]) = q ++ [f e] := by
  simp [modifyNewest]

/-! ### What keeps the queue sound -/

/-- A change of the newest event that leaves its number and kind keeps the queue sound. -/
theorem Events.Ok.modifyNewest {q : Events} (h : q.Ok) (f : Event → Event) (hs : ∀ e, (f e).seq = e.seq)
    (hk : ∀ e, (f e).kind = e.kind) : Events.Ok { q with queue := modifyNewest f q.queue } := by
  rcases List.eq_nil_or_concat q.queue with hq | ⟨l, e, hq⟩
  · have : Machine.modifyNewest f q.queue = q.queue := by simp [Machine.modifyNewest, hq]
    simpa only [this] using h
  · rw [List.concat_eq_append] at hq
    obtain ⟨hn, hr, ho, hb, hl⟩ := h
    rw [hq] at hr ho hb hl
    rw [consecutive_concat] at ho
    simp only [hq, modifyNewest_concat]
    refine ⟨hn, ?_, ?_, ?_, ?_⟩
    · intro d hd
      rcases List.mem_append.mp hd with hd | hd
      · exact hr d (List.mem_append_left _ hd)
      · cases List.mem_singleton.mp hd
        simpa [hs] using hr e (by simp)
    · simpa [consecutive_concat, hs] using ho
    · simpa using hb
    · simpa [hk] using hl

/-- An event that is appended while a place is free keeps the queue sound; the 32nd place is for EVENTS_LOST. -/
theorem Events.Ok.append {q : Events} (h : q.Ok) {r : Report}
    (hlen : q.queue.length < 31 ∨ (q.queue.length = 31 ∧ r.kind = .eventsLost)) : (q.append r).Ok where
  next_range := nextSeqAfter_range h.next_range
  seq_range e he := by
    rcases List.mem_append.mp he with he | he
    · exact h.seq_range e he
    · cases List.mem_singleton.mp he
      exact h.next_range
  in_order := by simp [Events.append, consecutive_concat, h.in_order]
  bounded := by simp [Events.append]; omega
  reserved hl := by
    simp only [Events.append, List.length_append, List.length_singleton] at hl
    have hk : r.kind = .eventsLost := by
      rcases hlen with hlen | ⟨-, hk⟩
      · omega
      · exact hk
    simp [Events.append, hk]

/-- A queue with no free place counts the loss into its EVENTS_LOST, or takes one as its 32nd event (R173). -/
theorem Events.Ok.lose {q : Events} (h : q.Ok) (hlen : 31 ≤ q.queue.length) (counter : Nat) (r : Report) :
    (q.lose counter r).Ok := by
  unfold Events.lose
  split
  · exact h.modifyNewest _ (fun _ => rfl) (fun _ => rfl)
  · rename_i hnew
    have hb := h.bounded
    have : q.queue.length ≠ 32 := fun hl => hnew (by simp [Events.newestIs, h.reserved hl, hl])
    exact h.append (.inr ⟨by omega, rfl⟩)

theorem Events.Ok.offer {q : Events} (h : q.Ok) (counter : Nat) (r : Report) : (q.offer counter r).Ok := by
  rcases q.offer_cases counter r with ⟨-, he⟩ | ⟨-, hl, he⟩ | ⟨-, hl, he⟩ <;> rw [he]
  · exact h.modifyNewest _ (fun _ => rfl) (fun _ => rfl)
  · exact h.append (.inl hl)
  · exact h.lose hl counter r

theorem Events.Ok.offers {q : Events} (h : q.Ok) (counter : Nat) (rs : List Report) :
    (q.offers counter rs).Ok := by
  induction rs generalizing q with
  | nil => exact h
  | cons r rs ih => exact ih (h.offer counter r)

/-- The head may leave (R175). -/
theorem Events.Ok.tail {q : Events} (h : q.Ok) {e : Event} {rest : List Event} (hq : q.queue = e :: rest) :
    Events.Ok { q with queue := rest } := by
  obtain ⟨hn, hr, ho, hb, -⟩ := h
  rw [hq] at hr ho hb
  rw [List.length_cons] at hb
  exact ⟨hn, fun d hd => hr d (List.mem_cons_of_mem _ hd), consecutive_of_cons ho, Nat.le_of_lt hb,
    fun hl => absurd hl (Nat.ne_of_lt hb)⟩

theorem Events.Ok.acknowledge {q : Events} (h : q.Ok) (bytes : List Byte) : (q.acknowledge bytes).Ok := by
  unfold Events.acknowledge
  split
  · exact h
  · rename_i hq
    split
    · exact h.tail hq
    · exact h

/-! ### The operations of the part -/

section Operations

variable {s : State} {sl : Slot} {w : Walk} {b : Bool} {res : CommandResult} {why : Reason} {d : BitVec 768}
  {rep : Report} {src : Source} {t : Transaction} {k : EventKind} {p n tie : Nat} {failure : WalkFailure}
  {l : RecordLine} {a : MemAnswer} {rec : Record} {q : BitVec 4} {g : BitVec 6} {image header : Line}
  {sc : Scan} {r : Request} {i : BitVec 8} {c : Checkpoint} {cause : ReleaseCause} {code index : Byte}
  {bytes : List Byte} {target : WriteTarget} (h : s.events.Ok)

include h

theorem Refuses.eventsOk {t : State} {l : List Transaction} (hr : Refuses s t l) : t.events.Ok := by
  rw [hr.2]
  exact h.offers _ _

theorem eventsOk_report : (s.report rep).events.Ok := h.offer _ _

theorem eventsOk_complete : (s.complete res why d).events.Ok := by
  rw [State.complete_events]
  exact h.offer _ _

theorem eventsOk_completeIf : (s.completeIf b res why d).events.Ok := by
  rw [s.completeIf_eq]
  exact h.offers _ _

theorem eventsOk_fenceRemovals : s.fenceRemovals.events.Ok := by
  rw [s.fenceRemovals_eq]
  exact h.offers _ _

theorem eventsOk_enterFence : s.enterFence.events.Ok := by
  unfold State.enterFence
  split
  · exact h
  · exact eventsOk_fenceRemovals h

theorem eventsOk_examineRelease : s.examineRelease.events.Ok := by
  unfold State.examineRelease
  split
  · exact eventsOk_report h
  · exact h

theorem eventsOk_stopScan : (s.stopScan res).events.Ok := by
  unfold State.stopScan
  split
  · exact h
  · exact eventsOk_complete h

theorem eventsOk_requestSeal : (s.requestSeal src).events.Ok := by
  unfold State.requestSeal
  split
  case isFalse => exact h
  case isTrue =>
    split
    case h_1 => exact h
    case h_2 =>
      split
      case h_4 => exact eventsOk_stopScan h
      all_goals exact h

theorem eventsOk_freeSlot : s.freeSlot.events.Ok := by simpa using h

theorem eventsOk_leaveRollback : s.leaveRollback.events.Ok := by
  unfold State.leaveRollback
  exact eventsOk_examineRelease (eventsOk_freeSlot h)

theorem eventsOk_endHold : (s.endHold sl).events.Ok :=
  let ⟨_, hr⟩ := s.endHold_refuses sl
  hr.eventsOk h

theorem eventsOk_endRollbackGate : (s.endRollbackGate sl).events.Ok :=
  let ⟨_, hr⟩ := s.endRollbackGate_refuses sl
  hr.eventsOk h

theorem eventsOk_epochOpen : s.epochOpen.events.Ok :=
  let ⟨_, hr⟩ := s.epochOpen_refuses
  hr.eventsOk h

theorem eventsOk_advance : s.advance.events.Ok :=
  let ⟨_, _, hr⟩ := s.advance_refuses
  hr.eventsOk h

theorem eventsOk_closeStep : s.closeStep.events.Ok := by simpa using h

theorem eventsOk_endCapture : (s.endCapture t k).events.Ok := by
  obtain ⟨l, -, hr⟩ := s.endCapture_refuses t k
  exact hr.eventsOk (h.offer _ _)

/-! ### The operations in the slot -/

theorem eventsOk_abortGather : (s.abortGather sl).events.Ok := by
  unfold State.abortGather
  exact eventsOk_freeSlot (eventsOk_completeIf (eventsOk_endHold h))

theorem eventsOk_preemptGather : (s.preemptGather sl).events.Ok := by
  unfold State.preemptGather
  exact eventsOk_completeIf h

theorem eventsOk_commit : (s.commit sl).events.Ok := by
  unfold State.commit
  exact eventsOk_completeIf (eventsOk_endHold (eventsOk_epochOpen (eventsOk_report h)))

theorem eventsOk_limitEnd : (s.limitEnd sl).events.Ok := by
  unfold State.limitEnd
  exact eventsOk_endHold (eventsOk_completeIf (eventsOk_report h))

theorem eventsOk_discard : (s.discard sl).events.Ok := by
  unfold State.discard
  exact eventsOk_completeIf (eventsOk_endHold h)

theorem eventsOk_failDrain : (s.failDrain sl w).events.Ok := by
  unfold State.failDrain
  refine eventsOk_leaveRollback (eventsOk_completeIf ?_)
  dsimp only
  exact eventsOk_report (eventsOk_endRollbackGate h)

theorem eventsOk_abortDrain : (s.abortDrain sl).events.Ok := by
  unfold State.abortDrain
  exact eventsOk_leaveRollback (eventsOk_completeIf (eventsOk_endRollbackGate h))

theorem eventsOk_checkTarget : s.checkTarget.events.Ok := by
  rcases s.checkTarget_cases with he | ⟨sl, w, -, -, -, -, -, he⟩ <;> rw [he]
  · exact h
  · exact eventsOk_failDrain h

theorem eventsOk_settle : (s.settle sl w).events.Ok := by
  unfold State.settle
  refine eventsOk_leaveRollback (eventsOk_completeIf ?_)
  dsimp only
  exact eventsOk_report (eventsOk_endRollbackGate (eventsOk_epochOpen h))

theorem eventsOk_enterBroken : (s.enterBroken sl w p failure).events.Ok := by
  unfold State.enterBroken
  refine eventsOk_completeIf ?_
  dsimp only
  exact eventsOk_report (eventsOk_enterFence h)

theorem eventsOk_checkRecord : (s.checkRecord sl w p image header).events.Ok := by
  unfold State.checkRecord
  split
  · exact h
  · exact eventsOk_enterBroken h

theorem eventsOk_restoreRead : (s.restoreRead l a).events.Ok := by
  unfold State.restoreRead
  split
  case h_2 => exact h
  case h_1 =>
    split
    case h_1 => exact h
    case h_2 =>
      dsimp only
      split
      · exact h
      · exact eventsOk_enterBroken h
      · split
        · exact eventsOk_checkRecord h
        · exact h

theorem eventsOk_restoreWritten : (s.restoreWritten a).events.Ok := by
  unfold State.restoreWritten
  split
  case h_2 => exact h
  case h_1 =>
    split
    case h_2 => exact h
    case h_1 =>
      split
      · unfold State.restored
        dsimp only
        split
        · exact eventsOk_settle h
        · exact h
      · split
        · exact h
        · exact eventsOk_enterBroken h

/-! ### Captures, records and scans -/

theorem eventsOk_endRecord : (s.endRecord p).events.Ok := by
  obtain ⟨_, _, _, _, _, he⟩ := s.endRecord_frame p
  rw [he]
  exact h

theorem eventsOk_journalFault : (s.journalFault q rec l).events.Ok := by
  unfold State.journalFault
  exact eventsOk_checkTarget (eventsOk_requestSeal (eventsOk_endRecord (eventsOk_report h)))

theorem eventsOk_writeLine : (s.writeLine rec l n).events.Ok := by
  simpa using h

theorem eventsOk_recordWritten : (s.recordWritten p l a).events.Ok := by
  unfold State.recordWritten
  split
  case h_1 => exact h
  case h_2 =>
    split
    case h_2 => exact h
    case h_1 =>
      split
      · exact eventsOk_writeLine h
      · exact eventsOk_endRecord h
      · split
        · exact eventsOk_writeLine h
        · exact eventsOk_journalFault h

theorem eventsOk_dropOldest : (s.dropOldest q).events.Ok := by
  unfold State.dropOldest
  split
  · exact eventsOk_report h
  · exact h

omit h in
theorem eventsOk_relieveBy (q : BitVec 4) (n : Nat) : ∀ {s : State}, s.events.Ok →
    (s.relieveBy q n).events.Ok := by
  induction n with
  | zero => exact id
  | succ n ih =>
    intro s h
    unfold State.relieveBy
    split
    · exact ih (eventsOk_dropOldest h)
    · exact h

theorem eventsOk_place : (s.place t image).events.Ok := by
  unfold State.place
  simpa using h

theorem eventsOk_allocate : (s.allocate t image).events.Ok := by
  unfold State.allocate State.relieve
  dsimp only
  have hq : (s.relieveBy t.requester s.epoch.table.length).events.Ok := eventsOk_relieveBy _ _ h
  split
  · split
    · exact eventsOk_place (eventsOk_requestSeal hq)
    · exact eventsOk_endCapture (eventsOk_requestSeal hq)
  · exact eventsOk_place hq

theorem eventsOk_captureRead : (s.captureRead q g a).events.Ok := by
  unfold State.captureRead
  split
  case h_1 => exact h
  case h_2 =>
    split
    · exact eventsOk_endCapture h
    · split
      · exact eventsOk_checkTarget (eventsOk_allocate h)
      · exact eventsOk_endCapture h

theorem eventsOk_scanOn : (s.scanOn sc).events.Ok := by
  unfold State.scanOn State.completeScan
  dsimp only
  split
  · refine eventsOk_freeSlot (eventsOk_complete ?_)
    dsimp only
    exact eventsOk_report h
  · exact h

theorem eventsOk_takeScanned : (s.takeScanned sc).events.Ok := by
  unfold State.takeScanned
  split
  · exact eventsOk_scanOn h
  · dsimp only
    split
    · exact eventsOk_scanOn h
    · exact eventsOk_scanOn h

theorem eventsOk_verifyRead : (s.verifyRead l a).events.Ok := by
  unfold State.verifyRead
  split
  case h_1 => exact h
  case h_2 =>
    dsimp only
    split
    · exact h
    · split
      · exact eventsOk_takeScanned h
      · exact h

theorem eventsOk_inspectRead : (s.inspectRead l a).events.Ok := by
  unfold State.inspectRead
  split
  case h_1 => exact h
  case h_2 =>
    dsimp only
    split
    · exact h
    · split
      · exact eventsOk_complete h
      · exact h

/-! ### The steps of the data path -/

theorem eventsOk_forwardEnds : (s.forwardEnds q g r a).events.Ok := by
  unfold State.forwardEnds
  split
  · exact eventsOk_report h
  · split <;> exact h

theorem eventsOk_ownerActs : (s.ownerActs r a).events.Ok := by
  unfold State.ownerActs
  split
  · exact eventsOk_forwardEnds h
  · exact eventsOk_forwardEnds h
  · exact eventsOk_captureRead h
  · exact eventsOk_recordWritten h
  · exact eventsOk_recordWritten h
  · exact eventsOk_restoreRead h
  · exact eventsOk_restoreRead h
  · exact eventsOk_restoreWritten h
  · exact eventsOk_verifyRead h
  · exact eventsOk_verifyRead h
  · exact eventsOk_inspectRead h
  · exact eventsOk_inspectRead h
  · exact h

theorem eventsOk_refuse : (s.refuse t).events.Ok := h.offer _ _

theorem eventsOk_routeTransaction : (s.routeTransaction t).events.Ok := by
  unfold State.routeTransaction
  split
  · exact eventsOk_advance h
  · split
    · exact eventsOk_advance h
    · exact h

theorem eventsOk_acceptTransaction : (s.acceptTransaction t).events.Ok := by
  unfold State.acceptTransaction
  split
  · exact h
  · split
    · exact eventsOk_refuse h
    · split
      · exact eventsOk_refuse h
      · exact h
      · exact eventsOk_closeStep (eventsOk_routeTransaction h)
      · exact eventsOk_closeStep (eventsOk_routeTransaction h)

theorem eventsOk_grant : (s.grant i tie).events.Ok := by
  unfold State.grant
  split
  case isFalse => exact h
  case isTrue =>
    split
    case h_1 => exact h
    case h_2 r _ =>
      apply eventsOk_closeStep
      unfold State.issue
      split
      · exact eventsOk_advance h
      · exact h

theorem eventsOk_portAnswer : (s.portAnswer i a).events.Ok := by
  unfold State.portAnswer
  split
  · exact eventsOk_closeStep (eventsOk_ownerActs h)
  · exact h

theorem eventsOk_timeOut : (s.timeOut i).events.Ok := by
  unfold State.timeOut
  split
  · exact eventsOk_closeStep (eventsOk_ownerActs h)
  · exact h

/-! ### Timers, gathers and the FAULT line -/

theorem eventsOk_epochTimerExpiry : s.epochTimerExpiry.events.Ok := by
  unfold State.epochTimerExpiry State.timerExpires
  split
  · split
    · exact h
    · split
      · exact h
      · exact eventsOk_requestSeal h
  · exact h
  · exact h

theorem eventsOk_gatherEnds : s.gatherEnds.events.Ok := by
  unfold State.gatherEnds
  split
  case h_1 => exact h
  case h_2 sl _ =>
    split
    · split
      · apply eventsOk_closeStep
        split
        · exact eventsOk_commit h
        · exact eventsOk_limitEnd h
      · exact h
    · split
      · exact eventsOk_closeStep (eventsOk_discard h)
      · exact h
    · exact h
    · exact h

theorem eventsOk_drainEnds : s.drainEnds.events.Ok := by
  unfold State.drainEnds
  split
  case h_2 => exact h
  case h_1 =>
    split
    · apply eventsOk_closeStep
      split
      · exact eventsOk_settle h
      · exact h
    · exact h

theorem eventsOk_displace : s.displace.events.Ok := by
  unfold State.displace
  split
  case h_1 => exact h
  case h_2 =>
    split
    · exact eventsOk_preemptGather h
    · exact eventsOk_preemptGather h
    · exact eventsOk_stopScan h
    · exact eventsOk_completeIf h

theorem eventsOk_startFaultRollback : (s.startFaultRollback c).events.Ok := by
  unfold State.startFaultRollback
  exact eventsOk_enterFence h

theorem eventsOk_fenceNoCheckpoint : s.fenceNoCheckpoint.events.Ok := by
  unfold State.fenceNoCheckpoint
  exact eventsOk_enterFence h

theorem eventsOk_upgrade : s.upgrade.events.Ok := by
  unfold State.upgrade
  exact eventsOk_enterFence h

theorem eventsOk_faultJournaling : s.faultJournaling.events.Ok := by
  unfold State.faultJournaling State.reportFault
  dsimp only
  split
  · exact eventsOk_upgrade (eventsOk_report h)
  · split
    · exact eventsOk_fenceNoCheckpoint (eventsOk_report h)
    · exact eventsOk_startFaultRollback (eventsOk_displace (eventsOk_report h))

theorem eventsOk_dispatchFault : s.dispatchFault.events.Ok := by
  unfold State.dispatchFault State.reportFault
  split
  · exact eventsOk_enterFence (eventsOk_report h)
  · exact eventsOk_faultJournaling h
  · exact eventsOk_report h

theorem eventsOk_faultRises : s.faultRises.events.Ok := by
  unfold State.faultRises
  dsimp only
  split
  · exact h
  · split
    · exact eventsOk_dispatchFault h
    · exact h

theorem eventsOk_faultFalls : s.faultFalls.events.Ok := by
  unfold State.faultFalls
  split
  · exact eventsOk_examineRelease h
  · exact h

theorem eventsOk_armRelease : (s.armRelease cause).events.Ok := by simpa using h

theorem eventsOk_fenceTimerExpires : s.fenceTimerExpires.events.Ok := by
  unfold State.fenceTimerExpires
  split
  · exact h
  · exact eventsOk_examineRelease (eventsOk_armRelease h)

/-! ### The mailbox -/

theorem eventsOk_reject : (s.reject why).events.Ok := eventsOk_complete h

theorem eventsOk_busy : s.busy.events.Ok := eventsOk_complete h

theorem eventsOk_setJournal : s.setJournal.events.Ok := by
  unfold State.setJournal
  split
  · dsimp only
    split
    · exact eventsOk_reject h
    · exact eventsOk_complete h
  · exact eventsOk_reject h

theorem eventsOk_copyIfIdle : s.copyIfIdle.events.Ok := by
  rw [s.copyIfIdle_eq]
  exact h

theorem eventsOk_setRegion : s.setRegion.events.Ok := by
  unfold State.setRegion
  dsimp only
  split
  · exact eventsOk_complete h
  · exact eventsOk_complete (eventsOk_copyIfIdle h)

theorem eventsOk_setPolicy : s.setPolicy.events.Ok := by
  unfold State.setPolicy
  dsimp only
  split
  · exact eventsOk_complete h
  · exact eventsOk_complete (eventsOk_copyIfIdle h)

theorem eventsOk_startJournaling : s.startJournaling.events.Ok := by
  unfold State.startJournaling
  split
  · exact eventsOk_reject h
  · exact eventsOk_reject h
  · split
    · exact eventsOk_closeStep (eventsOk_complete (eventsOk_epochOpen h))
    · exact eventsOk_reject h

theorem eventsOk_stopJournaling : s.stopJournaling.events.Ok := by
  unfold State.stopJournaling
  split
  · exact eventsOk_complete h
  · exact eventsOk_reject h
  · split
    · exact h
    · exact eventsOk_busy h

theorem eventsOk_sealEpoch : s.sealEpoch.events.Ok := by
  unfold State.sealEpoch
  split
  · exact eventsOk_reject h
  · exact eventsOk_reject h
  · split
    · exact h
    · split
      · exact h
      all_goals exact eventsOk_busy h

theorem eventsOk_startCommandRollback : (s.startCommandRollback c).events.Ok := by
  unfold State.startCommandRollback
  dsimp only
  split <;> exact h

theorem eventsOk_requestRollback : (s.requestRollback c).events.Ok := by
  unfold State.requestRollback
  split
  · exact eventsOk_startCommandRollback h
  · split
    · exact eventsOk_startCommandRollback (eventsOk_preemptGather h)
    all_goals exact eventsOk_busy h

theorem eventsOk_rollbackTo : s.rollbackTo.events.Ok := by
  unfold State.rollbackTo
  split
  · exact eventsOk_reject h
  · exact eventsOk_reject h
  · split
    · split
      · exact eventsOk_reject h
      · split
        · exact eventsOk_reject h
        · exact eventsOk_reject h
        · exact eventsOk_requestRollback h
    · exact eventsOk_reject h

theorem eventsOk_verifyJournal : s.verifyJournal.events.Ok := by
  unfold State.verifyJournal State.startScan
  split
  · exact eventsOk_reject h
  · exact eventsOk_reject h
  · split
    · exact eventsOk_closeStep (eventsOk_scanOn h)
    · exact eventsOk_busy h

theorem eventsOk_releaseFence : s.releaseFence.events.Ok := by
  unfold State.releaseFence
  split
  · exact eventsOk_reject h
  · apply eventsOk_complete
    split
    · exact eventsOk_examineRelease (eventsOk_armRelease h)
    · exact h

theorem eventsOk_recoverPart : s.recoverPart.events.Ok := by
  unfold State.recoverPart
  split
  · exact eventsOk_reject h
  · exact eventsOk_reject h
  · exact eventsOk_complete (eventsOk_examineRelease h)

theorem eventsOk_readTable : s.readTable.events.Ok := eventsOk_complete h

theorem eventsOk_readRecordAt : s.readRecordAt.events.Ok := by
  unfold State.readRecordAt
  split
  · exact eventsOk_reject h
  · dsimp only
    split
    · exact eventsOk_closeStep h
    · exact eventsOk_reject h

theorem eventsOk_honourAbort : s.honourAbort.events.Ok := by
  unfold State.honourAbort
  split
  case h_1 => exact h
  case h_2 =>
    split <;> split
    · exact eventsOk_closeStep (eventsOk_abortGather h)
    · exact h
    · exact eventsOk_closeStep (eventsOk_abortGather h)
    · exact h
    · exact eventsOk_closeStep (eventsOk_abortDrain h)
    · exact h
    · exact eventsOk_freeSlot (eventsOk_stopScan h)
    · exact h

theorem eventsOk_abortWritten : s.abortWritten.events.Ok := by
  unfold State.abortWritten
  split
  · exact h
  · split
    · exact h
    · exact eventsOk_honourAbort h

theorem eventsOk_writeTimerCtl : (s.writeTimerCtl bytes).events.Ok := by
  unfold State.writeTimerCtl
  dsimp only
  split
  · exact eventsOk_requestSeal h
  · exact h

theorem eventsOk_writeEventAck : (s.writeEventAck bytes).events.Ok :=
  h.acknowledge bytes

/-- A mask is no part of what makes a queue sound. -/
theorem eventsOk_writeAlertMask : (s.writeAlertMask bytes).events.Ok :=
  ⟨h.next_range, h.seq_range, h.in_order, h.bounded, h.reserved⟩

end Operations

/-- What each command does to the queue: offers, an acknowledge, or the reset's empty queue. -/
theorem eventsOk_stepKeeps : StepKeeps (fun s => s.events.Ok) (fun s => s.events.Ok) where
  keep h := h
  pending _ h := h
  select _ _ h := h
  tick _ h := h
  reset _ _ _ _ := State.reset_eventsOk
  phase _ h := h
  endReset _ _ _ _ h := h
  acceptTransaction _ h := eventsOk_acceptTransaction h
  grant _ _ h := eventsOk_grant h
  portAnswer _ _ h := eventsOk_portAnswer h
  timeOut _ h := eventsOk_timeOut h
  freeIdent _ h := h
  epochTimerExpiry h := eventsOk_epochTimerExpiry h
  gatherEnds h := eventsOk_gatherEnds h
  drainEnds h := eventsOk_drainEnds h
  faultRises h := eventsOk_faultRises h
  faultFalls h := eventsOk_faultFalls h
  fenceTimerExpires h := eventsOk_fenceTimerExpires h
  refuseCommand _ h := eventsOk_report h
  setJournal h _ _ := eventsOk_setJournal h
  setRegion h _ _ := eventsOk_setRegion h
  setPolicy h _ _ := eventsOk_setPolicy h
  startJournaling h _ _ := eventsOk_startJournaling h
  stopJournaling h _ _ := eventsOk_stopJournaling h
  sealEpoch h _ _ := eventsOk_sealEpoch h
  rollbackTo h _ _ := eventsOk_rollbackTo h
  verifyJournal h _ _ := eventsOk_verifyJournal h
  releaseFence h _ _ := eventsOk_releaseFence h
  recoverPart h _ _ := eventsOk_recoverPart h
  readTable h _ _ := eventsOk_readTable h
  readRecordAt h _ _ := eventsOk_readRecordAt h
  rejectCode h _ _ := eventsOk_reject h
  abortWritten h := eventsOk_abortWritten h
  writeTimerCtl _ h := eventsOk_writeTimerCtl h
  writeEventAck _ h := eventsOk_writeEventAck h
  writeAlertMask _ h := eventsOk_writeAlertMask h
  writeParam _ h := h

/-- Settles O55: an event is appended, merged or lost (`Events.Ok.offer`) or the head leaves, and `StepKeeps`
runs through the commands. -/
theorem everyStepKeepsTheEventQueue : Obligations.EveryStepKeepsTheEventQueue :=
  fun _ _ h ht => eventsOk_stepKeeps.step h ht

end Sys2Proof.Machine
end

section
/-! PROOFS. Modes, slot, countdown and gate: each operation keeps the ties of `State.ModesOk`. O57. -/

namespace Sys2Proof.Machine

set_option Elab.async false

/-! ### The gate after its operations -/

@[simp] theorem State.openHold_gate (s : State) : s.openHold.gate = { s.gate with state := .pass } := by
  obtain ⟨_, _, _, _, h⟩ := s.openHold_frame
  rw [h]

@[simp] theorem State.endHold_gate (s : State) (sl : Slot) :
    (s.endHold sl).gate =
      { s.gate with
        state := if sl.moved ∧ s.gate.state = .holdTracked then .pass else s.gate.state } := by
  obtain ⟨_, _, _, _, h⟩ := s.endHold_frame sl
  rw [h]

/-- The gate that a rollback leaves which has not failed its walk (R50, R53). -/
theorem State.endRollbackGate_gate (s : State) (sl : Slot) :
    (s.endRollbackGate sl).gate = gateAfterRollback s sl := by
  unfold State.endRollbackGate gateAfterRollback
  split
  · simp
  · split
    · simp
    · rfl

@[simp] theorem State.enterFence_gate (s : State) :
    s.enterFence.gate = if s.gate.state = .fence then s.gate else { s.gate with state := .fence, armed := none } := by
  split
  case isTrue h => rw [State.enterFence_of_fence h]
  case isFalse h => simp [State.enterFence_of_open h]

/-- VERIFY's early end leaves the slot and the owed flags to its caller (R141). -/
@[simp] theorem State.stopScan_ops (s : State) (res : CommandResult) :
    (s.stopScan res).ops.slot = s.ops.slot ∧ (s.stopScan res).ops.owed = s.ops.owed := by
  cases h : s.scan with
  | none => simp [State.stopScan, h]
  | some sc =>
    obtain ⟨_, _, h'⟩ := s.stopScan_frame res sc h
    simp [h']

@[simp] theorem State.completeIf_ops (s : State) (b : Bool) (res : CommandResult) (why : Reason)
    (d : BitVec 768) :
    (s.completeIf b res why d).ops.slot = s.ops.slot ∧ (s.completeIf b res why d).ops.owed = s.ops.owed := by
  simp [State.completeIf_eq]

/-- What holds the slot gives way to a fault in every mode alike (R86). -/
@[simp] theorem State.displace_mode (s : State) : s.displace.epoch = s.epoch := by
  unfold State.displace
  split
  · rfl
  · split <;> simp

theorem SealSources.first_ne_fault {q : SealSources} {src : Source} (h : q.first = some src) :
    src ≠ .fault := by
  rintro rfl
  unfold SealSources.first at h
  split at h
  · cases h
  · split at h
    · cases h
    · split at h <;> cases h

/-! ### The stages of SETTLE -/

/-- Table, counter and positions have been set back to the target (R127, steps 1 to 3). -/
def State.rewound (s : State) (w : Walk) : State :=
  { s with
    epoch := { s.epoch with
      table := settleTable w.targetEpoch (s.epoch.counter + 1) w.targetStart s.epoch.table
      counter := s.epoch.counter + 1 }
    journal := { s.journal with head := w.targetStart, written := w.targetStart } }

/-- The epoch-open actions have run on it, and timer-owed is clear (R12, R127). -/
def State.reopened (s : State) (w : Walk) : State :=
  { (s.rewound w).epochOpen with
    ops := { (s.rewound w).epochOpen.ops with
      owed := { (s.rewound w).epochOpen.ops.owed with timer := false } } }

@[simp] theorem State.reopened_fields (s : State) (w : Walk) :
    (s.reopened w).epoch = (s.rewound w).epoch ∧ (s.reopened w).journal = (s.rewound w).journal ∧
    (s.reopened w).gate = s.gate ∧ (s.reopened w).ops.slot = s.ops.slot ∧
    (s.reopened w).recovery = s.recovery ∧ (s.reopened w).mailbox = s.mailbox := by
  simp [State.reopened, State.rewound]

@[simp] theorem State.rewound_mode (s : State) (w : Walk) : (s.rewound w).epoch.mode = s.epoch.mode := rfl

/-- The gate has ended, ROLLBACK_DONE is queued and the record is COMPLETED (R128). -/
def State.recordedDone (s : State) (sl : Slot) (w : Walk) : State :=
  let gated := (s.reopened w).endRollbackGate sl
  let reported := gated.report ⟨.rollbackDone, 0, s.epoch.counter + 1, BitVec.ofNat 64 w.targetEpoch,
    count16 gated.recovery.restored⟩
  { reported with
    recovery := { reported.recovery with
      outcome := .completed, phase := .settle, newEpoch := s.epoch.counter + 1 } }

theorem State.settle_eq (s : State) (sl : Slot) (w : Walk) :
    s.settle sl w =
      ((s.recordedDone sl w).completeIf sl.command .done .none
        (recoveryData (s.recordedDone sl w).recovery)).leaveRollback := rfl

namespace State.ModesOk

variable {s t : State} {sl : Slot}

/-- The ties are between the mode, the table, the counter, the slot, the owed flags, the countdown and the
gate. -/
theorem congr (h : s.ModesOk) (he : t.epoch = s.epoch) (hs : t.ops.slot = s.ops.slot)
    (ho : t.ops.owed = s.ops.owed) (hc : t.timer.countdown = s.timer.countdown) (hg : t.gate = s.gate) :
    t.ModesOk where
  no_epoch hm := by
    rw [he] at hm ⊢
    exact h.no_epoch hm
  no_operation hm := by
    rw [he] at hm
    rw [hs, ho, hc]
    exact h.no_operation hm
  broken_fenced hm := by
    rw [he] at hm
    rw [hg]
    exact h.broken_fenced hm
  release_fenced hf := by
    rw [hg] at hf ⊢
    exact h.release_fenced hf
  fault_fenced x hx := by
    rw [hs] at hx
    rw [hg]
    exact h.fault_fenced x hx

/-- In JOURNALING only the ties of the gate are left. -/
theorem of_journaling (hm : s.epoch.mode = .journaling)
    (hr : s.gate.state ≠ .fence → s.gate.armed = none ∧ s.gate.timer = none)
    (hf : ∀ sl, s.ops.slot = some sl → sl.source = .fault → sl.operation = .rollback ∧ s.gate.state = .fence) :
    s.ModesOk where
  no_epoch h := absurd hm h
  no_operation h := absurd hm h
  broken_fenced h := absurd (hm.symm.trans h) (by decide)
  release_fenced := hr
  fault_fenced := hf

/-- A busy slot, and a countdown that is not STOPPED, are signs of JOURNALING. -/
theorem journaling_of_slot (h : s.ModesOk) (hs : s.ops.slot = some sl) : s.epoch.mode = .journaling := by
  by_contra hm
  rw [(h.no_operation hm).1] at hs
  cases hs

theorem journaling_of_countdown (h : s.ModesOk) {n : Nat} (hc : s.timer.countdown = .running n) :
    s.epoch.mode = .journaling := by
  by_contra hm
  rw [(h.no_operation hm).2.2] at hc
  cases hc

/-- A changed table keeps the ties if the empty table stays empty. -/
theorem withTable (h : s.ModesOk) {table : List Checkpoint} (ht : s.epoch.table = [] → table = []) :
    State.ModesOk { s with epoch := { s.epoch with table := table } } where
  no_epoch hm := ⟨ht (h.no_epoch hm).1, (h.no_epoch hm).2⟩
  no_operation := h.no_operation
  broken_fenced := h.broken_fenced
  release_fenced := h.release_fenced
  fault_fenced := h.fault_fenced

end State.ModesOk

/-! ### The operations of the part -/

section Operations

variable {s : State} {sl : Slot} {w : Walk} {b : Bool} {res : CommandResult} {why : Reason} {d : BitVec 768}
  {rep : Report} {src : Source} {t : Transaction} {k : EventKind} {p n tie : Nat} {failure : WalkFailure}
  {l : RecordLine} {a : MemAnswer} {rec : Record} {q : BitVec 4} {g : BitVec 6} {image header : Line}
  {sc : Scan} {r : Request} {i : BitVec 8} {c : Checkpoint} {cause : ReleaseCause} {code index : Byte}
  {bytes : List Byte} {target : WriteTarget} {op : Operation} {sources : SealSources} {cmd : Bool}
  (h : s.ModesOk)

include h

theorem modesOk_report : (s.report rep).ModesOk := h.congr rfl rfl rfl rfl rfl

theorem modesOk_complete : (s.complete res why d).ModesOk := h.congr rfl rfl rfl rfl rfl

theorem modesOk_completeIf : (s.completeIf b res why d).ModesOk :=
  h.congr (by simp) (by simp) (by simp) (by simp) (by simp)

theorem modesOk_advance : s.advance.ModesOk :=
  h.congr (by simp) (by simp) (by simp) (by simp) (by simp)

theorem modesOk_closeStep : s.closeStep.ModesOk :=
  h.congr (by simp) (by simp) (by simp) (by simp) (by simp)

theorem modesOk_endCapture : (s.endCapture t k).ModesOk :=
  h.congr (by simp) (by simp) (by simp) (by simp) (by simp)

theorem modesOk_stopScan : (s.stopScan res).ModesOk :=
  h.congr (by simp) (by simp) (by simp) (by simp) (by simp)

theorem modesOk_enterFence : s.enterFence.ModesOk := by
  by_cases hg : s.gate.state = .fence
  · rw [State.enterFence_of_fence hg]
    exact h
  · refine ⟨?_, ?_, ?_, ?_, ?_⟩ <;> simp only [State.enterFence_gate, State.enterFence_fields, if_neg hg]
    · exact h.no_epoch
    · exact h.no_operation
    · exact fun hm => absurd (h.broken_fenced hm).1 hg
    · exact fun hf => absurd rfl hf
    · exact fun sl hs hsrc => ⟨(h.fault_fenced sl hs hsrc).1, trivial⟩

/-- The fence that opens was no rollback's and not BROKEN's (R52). -/
theorem modesOk_examineRelease : s.examineRelease.ModesOk := by
  rcases s.examineRelease_cases with ⟨hdue, he⟩ | ⟨-, he⟩ <;> rw [he]
  case inr => exact h
  case inl =>
    obtain ⟨-, -, -, hroll, hbroken⟩ := s.releaseDue_iff.mp hdue
    have hfault : ∀ sl, s.ops.slot = some sl → sl.source ≠ .fault := by
      intro sl hs hsrc
      simp [OpCtl.holdsRollback, hs, (h.fault_fenced sl hs hsrc).1] at hroll
    refine ⟨h.no_epoch, fun hm => ?_, fun hm => absurd hm hbroken, fun _ => ⟨rfl, rfl⟩, fun sl hs hsrc => ?_⟩
    · obtain ⟨hs, ho, hc⟩ := h.no_operation hm
      exact ⟨by simp [State.openFence, hs], ho, hc⟩
    · simp only [State.openFence, State.report_ops] at hs
      split at hs
      · obtain ⟨sl', hs', rfl⟩ := Option.map_eq_some_iff.mp hs
        exact absurd hsrc (hfault sl' hs')
      · exact absurd hsrc (hfault sl hs)

/-- A SEAL or STOP starts in JOURNALING, and no fault owns it. -/
theorem modesOk_startGather (hm : s.epoch.mode = .journaling) (hsrc : src ≠ .fault) :
    (s.startGather op src sources cmd).ModesOk := by
  refine .of_journaling hm (fun hf => ?_) (fun sl hs hfault => ?_)
  · refine h.release_fenced fun hg => hf ?_
    simp [hg]
  · cases hs
    exact absurd hfault hsrc

theorem modesOk_requestSeal (hsrc : src ≠ .fault) : (s.requestSeal src).ModesOk := by
  by_cases hm : s.epoch.mode = .journaling
  case neg => rwa [State.requestSeal_outside hm]
  cases hs : s.ops.slot with
  | none =>
    rw [State.requestSeal_idle hm hs]
    exact modesOk_startGather h hm hsrc
  | some sl =>
    rw [State.requestSeal_busy hm hs]
    have owing : ∀ o, State.ModesOk { s with ops := { s.ops with owed := o } } := fun o =>
      .of_journaling hm h.release_fenced h.fault_fenced
    cases sl.operation with
    | stop => exact owing _
    | rollback => exact owing _
    | verify => exact modesOk_startGather (modesOk_stopScan h) (by simpa using hm) hsrc
    | _ =>
      refine .of_journaling (by simpa using hm) (by simpa using h.release_fenced) fun sl' hs' hsrc' => ?_
      simp only [State.joinSeal, hs, Option.map_some, Option.some.injEq] at hs'
      subst hs'
      exact h.fault_fenced sl hs hsrc'

theorem modesOk_freeSlot : s.freeSlot.ModesOk := by
  by_cases hm : s.epoch.mode = .journaling
  · have idle : ∀ o, State.ModesOk { s with ops := { s.ops with slot := none, owed := o } } := fun o =>
      .of_journaling hm h.release_fenced fun _ h => nomatch h
    rcases State.freeSlot_journaling hm with ⟨-, he⟩ | ⟨src, hsrc, he⟩ <;> rw [he]
    · exact idle _
    · exact modesOk_startGather (idle _) hm (SealSources.first_ne_fault hsrc)
  · rw [State.freeSlot_outside hm]
    obtain ⟨hs, -⟩ := h.no_operation hm
    exact h.congr rfl (by simp [hs]) rfl rfl rfl

theorem modesOk_leaveRollback : s.leaveRollback.ModesOk := by
  unfold State.leaveRollback
  exact modesOk_examineRelease (modesOk_freeSlot (s := { s with engine := none })
    (h.congr rfl rfl rfl rfl rfl))

/-- A hold that opens was no fence. -/
theorem modesOk_openHold (hg : s.gate.state ≠ .fence) : s.openHold.ModesOk := by
  refine ⟨?_, ?_, ?_, ?_, ?_⟩ <;> simp only [State.openHold_gate, State.openHold_fields]
  · exact h.no_epoch
  · exact h.no_operation
  · exact fun hm => absurd (h.broken_fenced hm).1 hg
  · exact fun _ => h.release_fenced hg
  · exact fun sl hs hsrc => absurd (h.fault_fenced sl hs hsrc).2 hg

theorem modesOk_endHold : (s.endHold sl).ModesOk := by
  unfold State.endHold
  split
  case isTrue hg => exact modesOk_openHold h (by rw [hg.2]; decide)
  case isFalse => exact h

theorem modesOk_startFenceTimer (hg : s.gate.state = .fence) (hm : s.epoch.mode ≠ .broken) :
    s.startFenceTimer.ModesOk :=
  ⟨h.no_epoch, h.no_operation, fun hb => absurd hb hm, fun hf => absurd hg hf, h.fault_fenced⟩

theorem modesOk_disarmed : State.ModesOk { s with gate := { s.gate with armed := none } } :=
  ⟨h.no_epoch, h.no_operation, fun hm => ⟨(h.broken_fenced hm).1, rfl, (h.broken_fenced hm).2.2⟩,
    fun hf => ⟨rfl, (h.release_fenced hf).2⟩, h.fault_fenced⟩

theorem modesOk_endRollbackGate (hs : s.ops.slot = some sl) : (s.endRollbackGate sl).ModesOk := by
  have hm : s.epoch.mode ≠ .broken := by rw [h.journaling_of_slot hs]; decide
  unfold State.endRollbackGate
  split
  case isTrue hsrc => exact modesOk_startFenceTimer (modesOk_disarmed h) (h.fault_fenced sl hs hsrc).2 hm
  case isFalse =>
    split
    case isTrue hg => exact modesOk_openHold h (by rw [hg.2]; decide)
    case isFalse => exact h

/-! ### The operations in the slot -/

/-- In JOURNALING neither the countdown nor the owed flags are tied. -/
theorem modesOk_retimed (hm : s.epoch.mode = .journaling) (timer : EpochTimer) (owed : SealSources) :
    State.ModesOk { s with timer := timer, ops := { s.ops with owed := owed } } :=
  .of_journaling hm h.release_fenced h.fault_fenced

/-- In JOURNALING an idle slot is tied to nothing. -/
theorem modesOk_idle (hm : s.epoch.mode = .journaling) (owed : SealSources) :
    State.ModesOk { s with ops := { s.ops with slot := none, owed := owed } } :=
  .of_journaling hm h.release_fenced fun _ h => nomatch h

theorem modesOk_abortGather (hs : s.ops.slot = some sl) : (s.abortGather sl).ModesOk := by
  have hm : (s.endHold sl).epoch.mode = .journaling := by simpa using h.journaling_of_slot hs
  unfold State.abortGather
  exact modesOk_freeSlot (modesOk_completeIf (modesOk_retimed (modesOk_endHold h) hm _ _))

theorem modesOk_preemptGather (hm : s.epoch.mode = .journaling) : (s.preemptGather sl).ModesOk := by
  unfold State.preemptGather
  exact modesOk_completeIf (modesOk_idle h hm _)

theorem modesOk_epochOpen (hm : s.epoch.mode = .journaling) : s.epochOpen.ModesOk := by
  refine .of_journaling (by simpa using hm) (by simpa using h.release_fenced) ?_
  simpa using h.fault_fenced

theorem modesOk_commit (hs : s.ops.slot = some sl) : (s.commit sl).ModesOk := by
  have hm := h.journaling_of_slot hs
  unfold State.commit
  dsimp only
  refine modesOk_completeIf (modesOk_idle (modesOk_endHold (modesOk_epochOpen (modesOk_report ?_) ?_)) ?_ _)
  · exact .of_journaling hm h.release_fenced h.fault_fenced
  · exact hm
  · simpa using hm

theorem modesOk_limitEnd (hs : s.ops.slot = some sl) : (s.limitEnd sl).ModesOk := by
  have hm := h.journaling_of_slot hs
  have he : (State.endHold ((s.report ⟨.epochLimit, 0, s.epoch.counter, BitVec.ofNat 64 s.epoch.counter,
      1⟩).completeIf sl.command .rejected .epochLimit (counterData s.epoch.counter)) sl).ModesOk :=
    modesOk_endHold (modesOk_completeIf (modesOk_report h))
  exact .of_journaling (by simpa [State.limitEnd] using hm) he.release_fenced fun _ h => nomatch h

omit h in
/-- With nothing open, held, owed or counted the gate alone is tied. -/
theorem State.ModesOk.of_quiet (hm : s.epoch.mode ≠ .broken) (ht : s.epoch.table = [])
    (hn : s.epoch.counter = 0) (hs : s.ops.slot = none) (ho : s.ops.owed = .empty)
    (hc : s.timer.countdown = .stopped)
    (hr : s.gate.state ≠ .fence → s.gate.armed = none ∧ s.gate.timer = none) : s.ModesOk :=
  ⟨fun _ => ⟨ht, hn⟩, fun _ => ⟨hs, ho, hc⟩, fun hb => absurd hb hm, hr, fun sl h => by rw [hs] at h; cases h⟩

theorem modesOk_discard : (s.discard sl).ModesOk := by
  unfold State.discard
  dsimp only
  apply modesOk_completeIf
  refine .of_quiet (by simp) (by simp) (by simp) rfl (by simp) (by simp) ?_
  simp only [State.endHold_gate, State.copyRegions_gate]
  exact fun hf => h.release_fenced fun hg => hf (by simp [hg])

theorem modesOk_failDrain (hs : s.ops.slot = some sl) : (s.failDrain sl w).ModesOk := by
  have hm : (s.endRollbackGate sl).epoch.mode = .journaling := by simpa using h.journaling_of_slot hs
  unfold State.failDrain
  refine modesOk_leaveRollback (modesOk_completeIf ?_)
  exact (modesOk_retimed (modesOk_endRollbackGate h hs) hm
    { (s.endRollbackGate sl).timer with countdown := (s.endRollbackGate sl).timer.countdown.resume }
    (s.endRollbackGate sl).ops.owed).congr rfl rfl rfl rfl rfl

theorem modesOk_abortDrain (hs : s.ops.slot = some sl) : (s.abortDrain sl).ModesOk := by
  have hm : (s.endRollbackGate sl).epoch.mode = .journaling := by simpa using h.journaling_of_slot hs
  unfold State.abortDrain
  refine modesOk_leaveRollback (modesOk_completeIf ?_)
  exact (modesOk_retimed (modesOk_endRollbackGate h hs) hm
    { (s.endRollbackGate sl).timer with countdown := (s.endRollbackGate sl).timer.countdown.resume }
    (s.endRollbackGate sl).ops.owed).congr rfl rfl rfl rfl rfl

theorem modesOk_checkTarget : s.checkTarget.ModesOk := by
  rcases s.checkTarget_cases with he | ⟨sl, w, hs, -, -, -, -, he⟩ <;> rw [he]
  · exact h
  · exact modesOk_failDrain h hs

theorem modesOk_settle (hs : s.ops.slot = some sl) : (s.settle sl w).ModesOk := by
  have hm := h.journaling_of_slot hs
  have hw : (s.rewound w).ModesOk := .of_journaling hm h.release_fenced h.fault_fenced
  have ho : (s.reopened w).ModesOk :=
    .of_journaling (by simpa using hm) (modesOk_epochOpen hw hm).release_fenced
      (modesOk_epochOpen hw hm).fault_fenced
  have hg : ((s.reopened w).endRollbackGate sl).ModesOk := modesOk_endRollbackGate ho (by simpa using hs)
  rw [State.settle_eq]
  refine modesOk_leaveRollback (modesOk_completeIf ?_)
  exact hg.congr rfl rfl rfl rfl rfl

omit h in
/-- A part that has become BROKEN is fenced, with nothing open, held, owed or counted (R129). -/
theorem modesOk_enterBroken : (s.enterBroken sl w p failure).ModesOk := by
  unfold State.enterBroken
  dsimp only
  refine modesOk_completeIf ?_
  have hg : s.enterFence.gate.state = .fence := s.enterFence_state
  have hg' : (State.enterFence { s with epoch := { s.epoch with mode := .broken } }).gate.state = .fence :=
    State.enterFence_state _
  exact ⟨fun _ => ⟨rfl, rfl⟩, fun _ => ⟨rfl, rfl, rfl⟩, fun _ => ⟨hg', rfl, rfl⟩, fun _ => ⟨rfl, rfl⟩,
    fun _ h => nomatch h⟩

/-! ### The walk, captures, records and scans -/

theorem modesOk_checkRecord : (s.checkRecord sl w p image header).ModesOk := by
  unfold State.checkRecord
  split
  · exact h.congr rfl rfl rfl rfl rfl
  · exact modesOk_enterBroken

theorem modesOk_restoreRead : (s.restoreRead l a).ModesOk := by
  unfold State.restoreRead
  split
  case h_2 => exact h
  case h_1 =>
    split
    case h_1 => exact h
    case h_2 =>
      dsimp only
      split
      · exact h.congr rfl rfl rfl rfl rfl
      · exact modesOk_enterBroken
      · split
        · exact modesOk_checkRecord (h.congr rfl rfl rfl rfl rfl)
        · exact h.congr rfl rfl rfl rfl rfl

theorem modesOk_restoreWritten : (s.restoreWritten a).ModesOk := by
  unfold State.restoreWritten
  split
  case h_2 => exact h
  case h_1 sl w hs _ =>
    split
    case h_2 => exact h
    case h_1 =>
      split
      · unfold State.restored
        dsimp only
        split
        · exact modesOk_settle (h.congr rfl rfl rfl rfl rfl) hs
        · exact h.congr rfl rfl rfl rfl rfl
      · split
        · exact h.congr rfl rfl rfl rfl rfl
        · exact modesOk_enterBroken

theorem modesOk_endRecord : (s.endRecord p).ModesOk := by
  obtain ⟨_, _, _, _, _, he⟩ := s.endRecord_frame p
  rw [he]
  exact h.congr rfl rfl rfl rfl rfl

theorem modesOk_journalFault : (s.journalFault q rec l).ModesOk := by
  unfold State.journalFault
  refine modesOk_checkTarget (modesOk_requestSeal (modesOk_endRecord (modesOk_report ?_)) (by decide))
  exact h.withTable fun ht => by rw [ht]; rfl

theorem modesOk_writeLine : (s.writeLine rec l n).ModesOk :=
  h.congr (by simp) (by simp) (by simp) (by simp) (by simp)

theorem modesOk_recordWritten : (s.recordWritten p l a).ModesOk := by
  unfold State.recordWritten
  split
  case h_1 => exact h
  case h_2 =>
    split
    case h_2 => exact h
    case h_1 =>
      split
      · exact modesOk_writeLine h
      · exact modesOk_endRecord h
      · split
        · exact modesOk_writeLine h
        · exact modesOk_journalFault h

theorem modesOk_dropOldest : (s.dropOldest q).ModesOk := by
  unfold State.dropOldest
  split
  case h_1 ht => exact modesOk_report ((h.withTable fun he => by simp [he] at ht).congr rfl rfl rfl rfl rfl)
  case h_2 => exact h

omit h in
theorem modesOk_relieveBy (q : BitVec 4) (n : Nat) : ∀ {s : State}, s.ModesOk → (s.relieveBy q n).ModesOk := by
  induction n with
  | zero => exact id
  | succ n ih =>
    intro s h
    unfold State.relieveBy
    split
    · exact ih (modesOk_dropOldest h)
    · exact h

omit h in
@[simp] theorem countRepeat_nil : countRepeat [] = [] := rfl

theorem modesOk_place : (s.place t image).ModesOk := by
  unfold State.place
  dsimp only
  refine modesOk_writeLine ?_
  refine State.ModesOk.congr (s := { s with epoch := { s.epoch with
    table := if (s.newRecord t image).repeated then countRepeat s.epoch.table else s.epoch.table } })
    (h.withTable fun ht => by simp [ht]) ?_ ?_ ?_ ?_ ?_ <;> simp

theorem modesOk_allocate : (s.allocate t image).ModesOk := by
  unfold State.allocate State.relieve
  dsimp only
  have hq := modesOk_relieveBy t.requester s.epoch.table.length h
  split
  · split
    · exact modesOk_place (modesOk_requestSeal hq (by decide))
    · exact modesOk_endCapture (modesOk_requestSeal hq (by decide))
  · exact modesOk_place hq

theorem modesOk_captureRead : (s.captureRead q g a).ModesOk := by
  unfold State.captureRead
  split
  case h_1 => exact h
  case h_2 =>
    split
    · exact modesOk_endCapture h
    · split
      · exact modesOk_checkTarget (modesOk_allocate h)
      · exact modesOk_endCapture h

theorem modesOk_scanOn : (s.scanOn sc).ModesOk := by
  unfold State.scanOn State.completeScan
  dsimp only
  split
  · exact modesOk_freeSlot (modesOk_complete (h.congr rfl rfl rfl rfl rfl))
  · exact h.congr rfl rfl rfl rfl rfl

theorem modesOk_takeScanned : (s.takeScanned sc).ModesOk := by
  unfold State.takeScanned
  split
  · exact modesOk_scanOn h
  · dsimp only
    split
    · exact modesOk_scanOn (h.withTable fun ht => by rw [ht]; rfl)
    · exact modesOk_scanOn h

theorem modesOk_verifyRead : (s.verifyRead l a).ModesOk := by
  unfold State.verifyRead
  split
  case h_1 => exact h
  case h_2 =>
    dsimp only
    split
    · exact h.congr rfl rfl rfl rfl rfl
    · split
      · exact modesOk_takeScanned (h.congr rfl rfl rfl rfl rfl)
      · exact h.congr rfl rfl rfl rfl rfl

theorem modesOk_inspectRead : (s.inspectRead l a).ModesOk := by
  unfold State.inspectRead
  split
  case h_1 => exact h
  case h_2 =>
    dsimp only
    split
    · exact h.congr rfl rfl rfl rfl rfl
    · split
      · exact modesOk_complete (h.congr rfl rfl rfl rfl rfl)
      · exact h.congr rfl rfl rfl rfl rfl

/-! ### The steps of the data path -/

theorem modesOk_forwardEnds : (s.forwardEnds q g r a).ModesOk := by
  unfold State.forwardEnds
  split
  · exact h.congr rfl rfl rfl rfl rfl
  · split <;> exact h.congr rfl rfl rfl rfl rfl

theorem modesOk_ownerActs : (s.ownerActs r a).ModesOk := by
  unfold State.ownerActs
  split
  · exact modesOk_forwardEnds (h.congr rfl rfl rfl rfl rfl)
  · exact modesOk_forwardEnds h
  · exact modesOk_captureRead h
  · exact modesOk_recordWritten h
  · exact modesOk_recordWritten h
  · exact modesOk_restoreRead h
  · exact modesOk_restoreRead h
  · exact modesOk_restoreWritten h
  · exact modesOk_verifyRead h
  · exact modesOk_verifyRead h
  · exact modesOk_inspectRead h
  · exact modesOk_inspectRead h
  · exact h

theorem modesOk_refuse : (s.refuse t).ModesOk := h.congr rfl rfl rfl rfl rfl

theorem modesOk_routeTransaction : (s.routeTransaction t).ModesOk := by
  have enter : (s.enterWaq t).ModesOk := modesOk_advance (h.congr rfl rfl rfl rfl rfl)
  unfold State.routeTransaction
  split
  · exact enter
  · split
    · exact enter
    · exact h.congr rfl rfl rfl rfl rfl

theorem modesOk_acceptTransaction : (s.acceptTransaction t).ModesOk := by
  unfold State.acceptTransaction
  split
  · exact h
  · split
    · exact modesOk_refuse h
    · split
      · exact modesOk_refuse h
      · exact h
      · exact modesOk_closeStep (modesOk_routeTransaction h)
      · exact modesOk_closeStep (modesOk_routeTransaction h)

theorem modesOk_grant : (s.grant i tie).ModesOk := by
  unfold State.grant
  split
  case isFalse => exact h
  case isTrue =>
    split
    case h_1 => exact h
    case h_2 r _ =>
      apply modesOk_closeStep
      unfold State.issue
      split
      · exact modesOk_advance (h.congr rfl rfl rfl rfl rfl)
      · exact h.congr rfl rfl rfl rfl rfl

theorem modesOk_portAnswer : (s.portAnswer i a).ModesOk := by
  unfold State.portAnswer
  split
  · exact modesOk_closeStep (modesOk_ownerActs (h.congr rfl rfl rfl rfl rfl))
  · exact h.congr rfl rfl rfl rfl rfl

theorem modesOk_timeOut : (s.timeOut i).ModesOk := by
  unfold State.timeOut
  split
  · exact modesOk_closeStep (modesOk_ownerActs (h.congr rfl rfl rfl rfl rfl))
  · exact h

/-! ### Timers, gathers and the FAULT line -/

theorem modesOk_epochTimerExpiry : s.epochTimerExpiry.ModesOk := by
  unfold State.epochTimerExpiry
  split
  case h_2 => exact h
  case h_3 => exact h
  case h_1 n hc =>
    have hm := h.journaling_of_countdown hc
    have timed : ∀ timer owed, State.ModesOk { s with timer := timer, ops := { s.ops with owed := owed } } :=
      modesOk_retimed h hm
    unfold State.timerExpires
    split
    · exact (timed _ s.ops.owed).congr rfl rfl rfl rfl rfl
    · split
      · exact timed _ _
      · exact modesOk_requestSeal ((timed { s.timer with countdown := .stopped } s.ops.owed).congr
          rfl rfl rfl rfl rfl) (by decide)

theorem modesOk_gatherEnds : s.gatherEnds.ModesOk := by
  unfold State.gatherEnds
  split
  case h_1 => exact h
  case h_2 sl hs =>
    split
    · split
      · apply modesOk_closeStep
        split
        · exact modesOk_commit h hs
        · exact modesOk_limitEnd h hs
      · exact h
    · split
      · exact modesOk_closeStep (modesOk_discard h)
      · exact h
    · exact h
    · exact h

theorem modesOk_beginRestore (hs : s.ops.slot = some sl) : (s.beginRestore w).ModesOk := by
  refine .of_journaling (h.journaling_of_slot hs) h.release_fenced fun sl' hs' hsrc => ?_
  simp only [State.beginRestore, State.beginRecord, State.joinRecordReads_ops, hs, Option.map_some,
    Option.some.injEq] at hs'
  subst hs'
  exact h.fault_fenced sl hs hsrc

theorem modesOk_drainEnds : s.drainEnds.ModesOk := by
  unfold State.drainEnds
  split
  case h_2 => exact h
  case h_1 sl w hs _ =>
    split
    · apply modesOk_closeStep
      split
      · exact modesOk_settle h hs
      · exact modesOk_beginRestore h hs
    · exact h

theorem modesOk_displace (hm : s.epoch.mode = .journaling) : s.displace.ModesOk := by
  unfold State.displace
  split
  case h_1 => exact h
  case h_2 =>
    split
    · exact modesOk_preemptGather h hm
    · exact modesOk_preemptGather h hm
    · exact modesOk_stopScan h
    · exact modesOk_completeIf h

omit h in
/-- A fault rollback starts under the fence it closes (R116). -/
theorem modesOk_startFaultRollback (hm : s.epoch.mode = .journaling) :
    (s.startFaultRollback c).ModesOk := by
  have hg : (s.enterDrain .fault .fault c false false).enterFence.gate.state = .fence :=
    State.enterFence_state _
  refine .of_journaling (by simpa [State.startFaultRollback] using hm) (fun hf => absurd hg hf) ?_
  intro sl hs _
  simp only [State.startFaultRollback, State.enterFence_fields, State.enterDrain_ops, Option.some.injEq] at hs
  subst hs
  exact ⟨rfl, hg⟩

theorem modesOk_fenceNoCheckpoint (hm : s.epoch.mode = .journaling) : s.fenceNoCheckpoint.ModesOk := by
  unfold State.fenceNoCheckpoint
  exact modesOk_startFenceTimer ((modesOk_enterFence h).congr rfl rfl rfl rfl rfl) s.enterFence_state
    (by simp [hm])

omit h in
/-- The rollback that a fault upgrades is fenced with it (R89). -/
theorem modesOk_upgrade (hc : s.ops.countsFault = true) (hm : s.epoch.mode = .journaling) :
    s.upgrade.ModesOk := by
  have hg : s.upgrade.gate.state = .fence := State.enterFence_state _
  refine .of_journaling (by simpa [State.upgrade] using hm) (fun hf => absurd hg hf) fun sl hs _ => ⟨?_, hg⟩
  simp only [State.upgrade, State.enterFence_fields, Option.map_eq_some_iff] at hs
  obtain ⟨sl', hs', rfl⟩ := hs
  simp only [OpCtl.countsFault, hs', Bool.and_eq_true, beq_iff_eq] at hc
  exact hc.1

theorem modesOk_faultJournaling (hm : s.epoch.mode = .journaling) : s.faultJournaling.ModesOk := by
  unfold State.faultJournaling State.reportFault
  dsimp only
  split
  case isTrue hc => exact modesOk_upgrade hc hm
  case isFalse =>
    split
    · exact modesOk_fenceNoCheckpoint (modesOk_report h) hm
    · refine modesOk_startFaultRollback ?_
      rw [State.displace_mode]
      exact hm

theorem modesOk_dispatchFault : s.dispatchFault.ModesOk := by
  unfold State.dispatchFault State.reportFault
  split
  case h_1 hm =>
    exact modesOk_startFenceTimer (modesOk_enterFence (modesOk_report h)) (State.enterFence_state _)
      (by simp [hm])
  case h_2 hm => exact modesOk_faultJournaling h hm
  case h_3 => exact modesOk_report h

theorem modesOk_faultRises : s.faultRises.ModesOk := by
  unfold State.faultRises
  dsimp only
  split
  · exact h
  · split
    · exact modesOk_dispatchFault ((modesOk_disarmed h).congr rfl rfl rfl rfl rfl)
    · exact h.congr rfl rfl rfl rfl rfl

theorem modesOk_faultFalls : s.faultFalls.ModesOk := by
  unfold State.faultFalls
  split
  · exact modesOk_examineRelease (h.congr rfl rfl rfl rfl rfl)
  · exact h

/-- A release is armed under a fence that is not BROKEN's (R51, R129). -/
theorem modesOk_armRelease (hg : s.gate.state = .fence) (hm : s.epoch.mode ≠ .broken) :
    (s.armRelease cause).ModesOk := by
  unfold State.armRelease
  split
  · exact h
  · exact ⟨h.no_epoch, h.no_operation, fun hb => absurd hb hm, fun hf => absurd hg hf, h.fault_fenced⟩

theorem modesOk_fenceTimerExpires : s.fenceTimerExpires.ModesOk := by
  unfold State.fenceTimerExpires
  split
  case h_1 => exact h
  case h_2 n hn =>
    have hg : s.gate.state = .fence := by
      by_contra hf
      rw [(h.release_fenced hf).2] at hn
      cases hn
    have hm : s.epoch.mode ≠ .broken := by
      intro hb
      rw [(h.broken_fenced hb).2.2] at hn
      cases hn
    refine modesOk_examineRelease (modesOk_armRelease ?_ hg hm)
    exact ⟨h.no_epoch, h.no_operation, fun hb => absurd hb hm, fun hf => absurd hg hf, h.fault_fenced⟩

/-! ### The mailbox -/

theorem modesOk_reject : (s.reject why).ModesOk := modesOk_complete h

theorem modesOk_busy : s.busy.ModesOk := modesOk_complete h

theorem modesOk_taken : (s.taken code).ModesOk := h.congr rfl rfl rfl rfl rfl

theorem modesOk_setJournal : s.setJournal.ModesOk := by
  unfold State.setJournal
  split
  · dsimp only
    split
    · exact modesOk_reject h
    · exact modesOk_complete (h.congr rfl rfl rfl rfl rfl)
  · exact modesOk_reject h

theorem modesOk_setRegion : s.setRegion.ModesOk := by
  unfold State.setRegion
  dsimp only
  split
  · exact modesOk_complete h
  · rw [State.copyIfIdle_eq]
    exact modesOk_complete (h.congr rfl rfl rfl rfl rfl)

theorem modesOk_setPolicy : s.setPolicy.ModesOk := by
  unfold State.setPolicy
  dsimp only
  split
  · exact modesOk_complete h
  · rw [State.copyIfIdle_eq]
    exact modesOk_complete (h.congr rfl rfl rfl rfl rfl)

theorem modesOk_startJournaling : s.startJournaling.ModesOk := by
  unfold State.startJournaling
  split
  · exact modesOk_reject h
  · exact modesOk_reject h
  case h_3 hm =>
    split
    · obtain ⟨hs, -⟩ := h.no_operation (by rw [hm]; decide)
      refine modesOk_closeStep (modesOk_complete (modesOk_epochOpen ?_ rfl))
      exact .of_journaling rfl h.release_fenced fun sl hsl => by rw [hs] at hsl; cases hsl
    · exact modesOk_reject h

theorem modesOk_stopJournaling : s.stopJournaling.ModesOk := by
  unfold State.stopJournaling
  split
  · exact modesOk_complete h
  · exact modesOk_reject h
  case h_3 hm =>
    split
    · exact modesOk_startGather h hm (by decide)
    · exact modesOk_busy h

theorem modesOk_sealEpoch : s.sealEpoch.ModesOk := by
  unfold State.sealEpoch
  split
  · exact modesOk_reject h
  · exact modesOk_reject h
  case h_3 hm =>
    split
    case h_1 => exact modesOk_startGather h hm (by decide)
    case h_2 sl hs =>
      split
      case h_1 =>
        refine .of_journaling hm h.release_fenced fun sl' hs' hsrc => ?_
        cases hs'
        exact h.fault_fenced sl hs hsrc
      all_goals exact modesOk_busy h

theorem modesOk_startCommandRollback (hm : s.epoch.mode = .journaling) :
    (s.startCommandRollback c).ModesOk := by
  unfold State.startCommandRollback
  dsimp only
  split
  case isTrue hg =>
    have hf : s.gate.state ≠ .fence := fun he => by simp [he, GateState.holdable] at hg
    exact .of_journaling hm (fun _ => h.release_fenced hf) fun sl hs hsrc => by cases hs; cases hsrc
  case isFalse =>
    exact .of_journaling hm h.release_fenced fun sl hs hsrc => by cases hs; cases hsrc

theorem modesOk_requestRollback (hm : s.epoch.mode = .journaling) : (s.requestRollback c).ModesOk := by
  unfold State.requestRollback
  split
  · exact modesOk_startCommandRollback h hm
  · split
    · exact modesOk_startCommandRollback (modesOk_preemptGather h hm) (by simpa using hm)
    all_goals exact modesOk_busy h

theorem modesOk_rollbackTo : s.rollbackTo.ModesOk := by
  unfold State.rollbackTo
  split
  · exact modesOk_reject h
  · exact modesOk_reject h
  case h_3 hm =>
    split
    · split
      · exact modesOk_reject h
      · split
        · exact modesOk_reject h
        · exact modesOk_reject h
        · exact modesOk_requestRollback h hm
    · exact modesOk_reject h

theorem modesOk_verifyJournal : s.verifyJournal.ModesOk := by
  unfold State.verifyJournal
  split
  · exact modesOk_reject h
  · exact modesOk_reject h
  case h_3 hm =>
    split
    · refine modesOk_closeStep (modesOk_scanOn ?_)
      exact .of_journaling hm h.release_fenced fun sl hs hsrc => by cases hs; cases hsrc
    · exact modesOk_busy h

theorem modesOk_releaseFence : s.releaseFence.ModesOk := by
  unfold State.releaseFence
  split
  case h_1 => exact modesOk_reject h
  case h_2 hm =>
    apply modesOk_complete
    split
    case isTrue hg => exact modesOk_examineRelease (modesOk_armRelease h hg.1 hm)
    case isFalse => exact h

theorem modesOk_recoverPart : s.recoverPart.ModesOk := by
  by_cases hm : s.epoch.mode = .broken
  case neg =>
    rw [State.recoverPart_outside hm]
    exact modesOk_reject h
  case pos =>
    obtain ⟨-, ha, hn⟩ := h.broken_fenced hm
    obtain ⟨ht, hcount⟩ := h.no_epoch (by rw [hm]; decide)
    obtain ⟨hs, ho, hc⟩ := h.no_operation (by rw [hm]; decide)
    rw [State.recoverPart_broken_not_armed hm ha]
    exact modesOk_complete (.of_quiet nofun ht hcount hs ho hc fun _ => ⟨ha, hn⟩)

theorem modesOk_readRecordAt : s.readRecordAt.ModesOk := by
  unfold State.readRecordAt
  split
  · exact modesOk_reject h
  · dsimp only
    split
    · exact modesOk_closeStep (h.congr rfl rfl rfl rfl rfl)
    · exact modesOk_reject h

theorem modesOk_honourAbort : s.honourAbort.ModesOk := by
  unfold State.honourAbort
  split
  case h_1 => exact h
  case h_2 sl hs =>
    split <;> split
    · exact modesOk_closeStep (modesOk_abortGather h hs)
    · exact h
    · exact modesOk_closeStep (modesOk_abortGather h hs)
    · exact h
    · exact modesOk_closeStep (modesOk_abortDrain h hs)
    · exact h
    · exact modesOk_freeSlot (modesOk_stopScan h)
    · exact h

theorem modesOk_abortWritten : s.abortWritten.ModesOk := by
  unfold State.abortWritten
  split
  · exact h
  · split
    · exact h
    · exact modesOk_honourAbort (h.congr rfl rfl rfl rfl rfl)

theorem modesOk_writeTimerCtl : (s.writeTimerCtl bytes).ModesOk := by
  unfold State.writeTimerCtl
  dsimp only
  split
  · exact modesOk_requestSeal (h.congr rfl rfl rfl rfl rfl) (by decide)
  · exact h.congr rfl rfl rfl rfl rfl

theorem modesOk_countTick (pending : List Instr) :
    State.ModesOk { s.countTick with pending := pending } where
  no_epoch := h.no_epoch
  no_operation hm := by
    obtain ⟨hs, ho, hc⟩ := h.no_operation hm
    exact ⟨hs, ho, by simp [hc, Countdown.tick]⟩
  broken_fenced hm := by
    obtain ⟨hg, ha, hn⟩ := h.broken_fenced hm
    exact ⟨hg, ha, by simp [hn]⟩
  release_fenced hf := by
    obtain ⟨ha, hn⟩ := h.release_fenced hf
    exact ⟨ha, by simp [hn]⟩
  fault_fenced := h.fault_fenced

end Operations

/-- What each command does to mode, slot, countdown and gate. -/
theorem modesOk_stepKeeps : StepKeeps State.ModesOk State.ModesOk where
  keep h := h
  pending _ h := h.congr rfl rfl rfl rfl rfl
  select _ _ h := h.congr rfl rfl rfl rfl rfl
  tick p h := modesOk_countTick h p
  reset _ _ _ _ := State.reset_modesOk.congr rfl rfl rfl rfl rfl
  phase _ h := h.congr rfl rfl rfl rfl rfl
  endReset _ _ _ _ h := h.congr rfl rfl rfl rfl rfl
  acceptTransaction _ h := modesOk_acceptTransaction h
  grant _ _ h := modesOk_grant h
  portAnswer _ _ h := modesOk_portAnswer h
  timeOut _ h := modesOk_timeOut h
  freeIdent _ h := h.congr rfl rfl rfl rfl rfl
  epochTimerExpiry h := modesOk_epochTimerExpiry h
  gatherEnds h := modesOk_gatherEnds h
  drainEnds h := modesOk_drainEnds h
  faultRises h := modesOk_faultRises h
  faultFalls h := modesOk_faultFalls h
  fenceTimerExpires h := modesOk_fenceTimerExpires h
  refuseCommand _ h := modesOk_report h
  setJournal h _ _ := modesOk_setJournal (modesOk_taken h)
  setRegion h _ _ := modesOk_setRegion (modesOk_taken h)
  setPolicy h _ _ := modesOk_setPolicy (modesOk_taken h)
  startJournaling h _ _ := modesOk_startJournaling (modesOk_taken h)
  stopJournaling h _ _ := modesOk_stopJournaling (modesOk_taken h)
  sealEpoch h _ _ := modesOk_sealEpoch (modesOk_taken h)
  rollbackTo h _ _ := modesOk_rollbackTo (modesOk_taken h)
  verifyJournal h _ _ := modesOk_verifyJournal (modesOk_taken h)
  releaseFence h _ _ := modesOk_releaseFence (modesOk_taken h)
  recoverPart h _ _ := modesOk_recoverPart (modesOk_taken h)
  readTable h _ _ := modesOk_complete (modesOk_taken h)
  readRecordAt h _ _ := modesOk_readRecordAt (modesOk_taken h)
  rejectCode h _ _ := modesOk_reject (modesOk_taken h)
  abortWritten h := modesOk_abortWritten h
  writeTimerCtl _ h := modesOk_writeTimerCtl h
  writeEventAck _ h := h.congr rfl rfl rfl rfl rfl
  writeAlertMask _ h := h.congr rfl rfl rfl rfl rfl
  writeParam _ h := h.congr rfl rfl rfl rfl rfl

/-- Settles O57: `State.ModesOk` is kept by every operation, and `StepKeeps` runs through the commands. -/
theorem everyStepKeepsModesAndGate : Obligations.EveryStepKeepsModesAndGate :=
  fun _ _ h ht => modesOk_stepKeeps.step h ht

end Sys2Proof.Machine
end

section
/-! PROOFS. The running command and its owner: each operation keeps the ties of `State.CommandOk`. O58. -/

namespace Sys2Proof.Machine

set_option Elab.async false

@[simp] theorem State.completeIf_command (s : State) (b : Bool) (res : CommandResult) (why : Reason)
    (d : BitVec 768) :
    (s.completeIf b res why d).mailbox.cmd = (if b then 0 else s.mailbox.cmd) ∧
      (s.completeIf b res why d).ops.abortPending = (if b then false else s.ops.abortPending) := by
  cases b <;> simp [State.completeIf]

/-- What of the slot the running command is tied to. -/
def Slot.claim (sl : Slot) : Operation × Phase × Bool := (sl.operation, sl.phase, sl.command)

/-- With no code in CMD and no abort pending. -/
def State.uncommanded (s : State) : State :=
  { s with mailbox := { s.mailbox with cmd := 0 }, ops := { s.ops with abortPending := false } }

/-- The running command is READ_RECORD's, or there is none, and no scan runs: what is left when an operation
has given up its command. -/
structure State.Unclaimed (s : State) : Prop where
  running : s.mailbox.cmd ≠ 0 ↔ s.inspect.isSome = true
  abort_needs_command : s.ops.abortPending = true → s.mailbox.cmd ≠ 0
  no_scan : s.scan = none

/-- No rollback runs. -/
def State.Quiet (s : State) : Prop := s.engine = none ∧ s.recovery.outcome ≠ .inProgress

/-- VERIFY holds the slot for the mailbox's command. -/
structure State.Scanning (s : State) : Prop where
  slot : ∃ sl, s.ops.slot = some sl ∧ sl.claim = (.verify, .scan, true)
  commanded : s.mailbox.cmd ≠ 0
  alone : s.inspect = none
  quiet : s.Quiet

theorem Operation.phase_of_verify {ph : Phase} (h : Operation.verify.hasPhase ph = true) : ph = .scan := by
  cases ph
  case scan => rfl
  all_goals exact nomatch h

/-! ### Reading and giving the ties -/

section Slots

variable {s t : State} {sl : Slot}

/-- The ties with this operation in the slot. -/
structure State.Claims (s : State) (sl : Slot) : Prop where
  running : s.mailbox.cmd ≠ 0 ↔ s.inspect.isSome = true ∨ sl.command = true
  one_owner : ¬(s.inspect.isSome = true ∧ sl.command = true)
  abort_needs_command : s.ops.abortPending = true → s.mailbox.cmd ≠ 0
  scan_runs : s.scan.isSome = true ↔ sl.operation = .verify
  engine_runs : s.engine.isSome = true ↔ sl.operation = .rollback
  verify_commanded : sl.operation = .verify → sl.command = true
  phase : sl.operation.hasPhase sl.phase = true
  in_progress : s.recovery.outcome = .inProgress → sl.operation = .rollback

theorem State.commandOk_of_claims (hs : s.ops.slot = some sl) (h : s.Claims sl) : s.CommandOk where
  running := by simpa [OpCtl.hasCommand, hs] using h.running
  one_owner := by simpa [OpCtl.hasCommand, hs] using h.one_owner
  abort_needs_command := h.abort_needs_command
  scan_runs := by
    rw [Bool.eq_iff_iff, h.scan_runs]
    simp [OpCtl.holds, hs]
  engine_runs := by
    rw [Bool.eq_iff_iff, h.engine_runs]
    simp [OpCtl.holds, hs]
  verify_commanded sl' hs' := by
    cases hs.symm.trans hs'
    exact h.verify_commanded
  phases sl' hs' := by
    cases hs.symm.trans hs'
    exact h.phase
  in_progress := by simpa [OpCtl.holds, hs] using h.in_progress

theorem State.CommandOk.claims (h : s.CommandOk) (hs : s.ops.slot = some sl) : s.Claims sl where
  running := by simpa [OpCtl.hasCommand, hs] using h.running
  one_owner := by simpa [OpCtl.hasCommand, hs] using h.one_owner
  abort_needs_command := h.abort_needs_command
  scan_runs := by
    rw [h.scan_runs]
    simp [OpCtl.holds, hs]
  engine_runs := by
    rw [h.engine_runs]
    simp [OpCtl.holds, hs]
  verify_commanded := h.verify_commanded sl hs
  phase := h.phases sl hs
  in_progress := by simpa [OpCtl.holds, hs] using h.in_progress

theorem State.Unclaimed.congr (h : s.Unclaimed) (hc : t.mailbox.cmd = s.mailbox.cmd)
    (hi : t.inspect = s.inspect) (ha : t.ops.abortPending = s.ops.abortPending) (hs : t.scan = s.scan) :
    t.Unclaimed where
  running := by rw [hc, hi]; exact h.running
  abort_needs_command := by rw [hc, ha]; exact h.abort_needs_command
  no_scan := by rw [hs]; exact h.no_scan

/-- On an idle slot the command is READ_RECORD's, and nothing runs. -/
theorem State.commandOk_of_idle (hs : s.ops.slot = none) (h : s.Unclaimed) (hq : s.Quiet) : s.CommandOk where
  running := by simpa [OpCtl.hasCommand, hs] using h.running
  one_owner := by simp [OpCtl.hasCommand, hs]
  abort_needs_command := h.abort_needs_command
  scan_runs := by simp [OpCtl.holds, hs, h.no_scan]
  engine_runs := by simp [OpCtl.holds, hs, hq.1]
  verify_commanded sl hsl := by
    rw [hs] at hsl
    exact nomatch hsl
  phases sl hsl := by
    rw [hs] at hsl
    exact nomatch hsl
  in_progress hp := absurd hp hq.2

theorem State.CommandOk.idle (h : s.CommandOk) (hs : s.ops.slot = none) : s.Unclaimed ∧ s.Quiet where
  left := {
    running := by simpa [OpCtl.hasCommand, hs] using h.running
    abort_needs_command := h.abort_needs_command
    no_scan := by simpa [OpCtl.holds, hs] using h.scan_runs }
  right := ⟨by simpa [OpCtl.holds, hs] using h.engine_runs,
    fun hp => by simpa [OpCtl.holds, hs] using h.in_progress hp⟩

namespace State.CommandOk

/-- The ties are between the code in CMD, *abort pending*, READ_RECORD, the slot, the scan, the engine and
the record's outcome. -/
theorem congr (h : s.CommandOk) (hs : t.ops.slot.map Slot.claim = s.ops.slot.map Slot.claim)
    (hc : t.mailbox.cmd = s.mailbox.cmd) (hi : t.inspect.isSome = s.inspect.isSome)
    (ha : t.ops.abortPending = s.ops.abortPending) (hsc : t.scan.isSome = s.scan.isSome)
    (he : t.engine.isSome = s.engine.isSome) (hr : t.recovery.outcome = s.recovery.outcome) :
    t.CommandOk := by
  cases hts : t.ops.slot with
  | none =>
    have hss : s.ops.slot = none := by simpa [hts] using hs.symm
    obtain ⟨hu, hq⟩ := h.idle hss
    refine commandOk_of_idle hts ⟨?_, ?_, ?_⟩ ⟨?_, ?_⟩
    · rw [hc, hi]; exact hu.running
    · rw [hc, ha]; exact hu.abort_needs_command
    · simpa [hu.no_scan] using hsc
    · simpa [hq.1] using he
    · rw [hr]; exact hq.2
  | some sl =>
    obtain ⟨sl', hss, hclaim⟩ := Option.map_eq_some_iff.mp ((hs.symm.trans (congrArg _ hts)).trans rfl)
    obtain ⟨hop, hphase, hcmd⟩ : sl'.operation = sl.operation ∧ sl'.phase = sl.phase ∧
        sl'.command = sl.command := by simpa [Slot.claim] using hclaim
    obtain ⟨h1, h2, h3, h4, h5, h6, h7, h8⟩ := h.claims hss
    rw [hop, hphase] at h7
    rw [hop] at h4 h5 h6 h8
    rw [hcmd] at h1 h2 h6
    refine commandOk_of_claims hts ⟨?_, ?_, ?_, ?_, ?_, h6, h7, ?_⟩
    · rwa [hc, hi]
    · rwa [hi]
    · rwa [hc, ha]
    · rwa [hsc]
    · rwa [he]
    · rwa [hr]

/-- A running engine belongs to a rollback in the slot, a running scan to VERIFY. -/
theorem rollback_of_engine (h : s.CommandOk) {w : Walk} (he : s.engine = some w) (hs : s.ops.slot = some sl) :
    sl.operation = .rollback :=
  (h.claims hs).engine_runs.mp (by rw [he]; rfl)

theorem scanning (h : s.CommandOk) {sc : Scan} (hsc : s.scan = some sc) : s.Scanning := by
  have hh : s.ops.holds .verify = true := by rw [← h.scan_runs, hsc]; rfl
  cases hs : s.ops.slot with
  | none => simp [OpCtl.holds, hs] at hh
  | some sl =>
    have hop : sl.operation = .verify := by simpa [OpCtl.holds, hs] using hh
    have hcl := h.claims hs
    have hcmd := hcl.verify_commanded hop
    have hphase : sl.phase = .scan := Operation.phase_of_verify (hop ▸ hcl.phase)
    refine ⟨⟨sl, hs, by simp [Slot.claim, hop, hcmd, hphase]⟩, hcl.running.mpr (.inr hcmd), ?_, ?_, ?_⟩
    · simpa [hcmd] using hcl.one_owner
    · simpa [hop] using hcl.engine_runs
    · exact fun hp => by simpa [hop] using hcl.in_progress hp

end State.CommandOk

end Slots

/-! ### Commands and operations end -/

section Operations

variable {s : State} {sl : Slot} {w : Walk} {b : Bool} {res : CommandResult} {why : Reason} {d : BitVec 768}
  {rep : Report} {src : Source} {t : Transaction} {k : EventKind} {p n tie : Nat} {failure : WalkFailure}
  {l : RecordLine} {a : MemAnswer} {rec : Record} {q : BitVec 4} {g : BitVec 6} {image header : Line}
  {sc : Scan} {r : Request} {i : BitVec 8} {c : Checkpoint} {cause : ReleaseCause} {code index : Byte}
  {bytes : List Byte} {target : WriteTarget} {op : Operation} {sources : SealSources} {cmd : Bool}
  {trig : Trigger} {o : Owner}

/-- The operation in the slot, which is not VERIFY, has completed its command. -/
theorem unclaimed_of_completed {t : State} (h : s.CommandOk) (hs : s.ops.slot = some sl)
    (hop : sl.operation ≠ .verify) (hc : t.mailbox.cmd = if sl.command then 0 else s.mailbox.cmd)
    (ha : t.ops.abortPending = if sl.command then false else s.ops.abortPending)
    (hi : t.inspect = s.inspect) (hsc : t.scan = s.scan) : t.Unclaimed := by
  obtain ⟨hrun, hone, habort, hscan, -⟩ := h.claims hs
  have hnone : s.scan = none := by simpa [hop] using hscan
  cases hcmd : sl.command
  case false =>
    simp only [hcmd, Bool.false_eq_true, if_false] at hc ha
    refine ⟨?_, ?_, by rw [hsc, hnone]⟩
    · rw [hc, hi]
      simpa [hcmd] using hrun
    · rw [hc, ha]
      exact habort
  case true =>
    simp only [hcmd, if_true] at hc ha
    have hinone : s.inspect = none := by simpa [hcmd] using hone
    exact ⟨by simp [hc, hi, hinone], by simp [ha], by rw [hsc, hnone]⟩

/-- VERIFY gives up its command and its scan (R141). -/
theorem unclaimed_stopScan (h : s.CommandOk) (hs : s.ops.slot = some sl) (hop : sl.operation = .verify) :
    (s.stopScan res).Unclaimed ∧ (s.stopScan res).Quiet := by
  have hsome : s.scan.isSome = true := (h.claims hs).scan_runs.mpr hop
  obtain ⟨sc, hsc⟩ := Option.isSome_iff_exists.mp hsome
  obtain ⟨-, -, hi, he, hr⟩ := h.scanning hsc
  obtain ⟨_, _, hst⟩ := s.stopScan_frame res sc hsc
  refine ⟨?_, by simpa using he, by simpa using hr⟩
  rw [hst]
  exact ⟨by simp [hi, Mailbox.completed], nofun, rfl⟩

/-- A SEAL or STOP takes the slot for no command. -/
theorem commandOk_startGather (h : s.Unclaimed) (hq : s.Quiet) (hop : op.hasPhase .gather = true) :
    (s.startGather op src sources false).CommandOk := by
  obtain ⟨hrun, habort, hsc⟩ := h
  obtain ⟨he, hr⟩ := hq
  refine State.commandOk_of_claims rfl ⟨?_, ?_, ?_, ?_, ?_, ?_, hop, ?_⟩
  · simpa using hrun
  · simp
  · simpa using habort
  · simp only [State.startGather, hsc, Option.isSome_none, Bool.false_eq_true, false_iff]
    rintro rfl
    exact nomatch hop
  · simp only [State.startGather, he, Option.isSome_none, Bool.false_eq_true, false_iff]
    rintro rfl
    exact nomatch hop
  · rintro rfl
    exact nomatch hop
  · intro hp
    exact absurd hp hr

theorem commandOk_freeSlot (h : s.Unclaimed) (hq : s.Quiet) : s.freeSlot.CommandOk := by
  by_cases hm : s.epoch.mode = .journaling
  · rcases State.freeSlot_journaling hm with ⟨-, he⟩ | ⟨src, -, he⟩ <;> rw [he]
    · exact State.commandOk_of_idle rfl (h.congr rfl rfl rfl rfl) hq
    · exact commandOk_startGather (h.congr rfl rfl rfl rfl) hq rfl
  · rw [State.freeSlot_outside hm]
    exact State.commandOk_of_idle rfl (h.congr rfl rfl rfl rfl) hq

/-- The fence that opens leaves what the slot claims. -/
@[simp] theorem State.examineRelease_claim (s : State) :
    s.examineRelease.ops.slot.map Slot.claim = s.ops.slot.map Slot.claim ∧
      s.examineRelease.ops.abortPending = s.ops.abortPending := by
  rcases s.examineRelease_cases with ⟨-, he⟩ | ⟨-, he⟩ <;> rw [he]
  · refine ⟨?_, rfl⟩
    simp only [State.openFence, State.report_ops]
    split
    · rw [Option.map_map]
      rfl
    · rfl
  · exact ⟨rfl, rfl⟩

theorem commandOk_examineRelease (h : s.CommandOk) : s.examineRelease.CommandOk :=
  h.congr (by simp) (by simp) (by simp) (by simp) (by simp) (by simp) (by simp)

theorem commandOk_leaveRollback (h : s.Unclaimed) (hr : s.recovery.outcome ≠ .inProgress) :
    s.leaveRollback.CommandOk := by
  unfold State.leaveRollback
  exact commandOk_examineRelease (commandOk_freeSlot (h.congr rfl rfl rfl rfl) ⟨rfl, hr⟩)

/-- A rollback takes the slot; its command is the mailbox's, or it has none. -/
theorem commandOk_enterDrain (hrun : s.mailbox.cmd ≠ 0 ↔ s.inspect.isSome = true ∨ cmd = true)
    (hone : ¬(s.inspect.isSome = true ∧ cmd = true))
    (habort : s.ops.abortPending = true → s.mailbox.cmd ≠ 0) (hsc : s.scan = none) :
    (s.enterDrain src trig c cmd b).CommandOk := by
  refine State.commandOk_of_claims rfl ⟨hrun, hone, habort, ?_, ?_, ?_, rfl, ?_⟩
  · simp [State.enterDrain, hsc]
  · simp [State.enterDrain]
  · simp
  · simp

/-- The command that completes was all that CMD held (R161). -/
theorem commandOk_complete (h : s.uncommanded.CommandOk) : (s.complete res why d).CommandOk :=
  h.congr rfl rfl rfl rfl rfl rfl rfl

/-! ### The operations of the part -/

section

variable (h : s.CommandOk)

include h

theorem commandOk_report : (s.report rep).CommandOk := h.congr rfl rfl rfl rfl rfl rfl rfl

theorem commandOk_advance : s.advance.CommandOk :=
  h.congr (by simp) (by simp) (by simp) (by simp) (by simp) (by simp) (by simp)

theorem commandOk_closeStep : s.closeStep.CommandOk :=
  h.congr (by simp) (by simp) (by simp) (by simp) (by simp) (by simp) (by simp)

theorem commandOk_endCapture : (s.endCapture t k).CommandOk :=
  h.congr (by simp) (by simp) (by simp) (by simp) (by simp) (by simp) (by simp)

theorem commandOk_enterFence : s.enterFence.CommandOk :=
  h.congr (by simp) (by simp) (by simp) (by simp) (by simp) (by simp) (by simp)

theorem commandOk_startFenceTimer : s.startFenceTimer.CommandOk := h.congr rfl rfl rfl rfl rfl rfl rfl

theorem commandOk_writeLine : (s.writeLine rec l n).CommandOk :=
  h.congr (by simp) (by simp) (by simp) (by simp) (by simp) (by simp) (by simp)

theorem commandOk_armRelease : (s.armRelease cause).CommandOk :=
  h.congr (by simp) (by simp) (by simp) (by simp) (by simp) (by simp) (by simp)

theorem commandOk_endRecord : (s.endRecord p).CommandOk := by
  obtain ⟨_, _, _, _, _, he⟩ := s.endRecord_frame p
  rw [he]
  exact h.congr rfl rfl rfl rfl rfl rfl rfl

theorem commandOk_abortPending (hc : s.mailbox.cmd ≠ 0) :
    State.CommandOk { s with ops := { s.ops with abortPending := true } } :=
  ⟨h.running, h.one_owner, fun _ => hc, h.scan_runs, h.engine_runs, h.verify_commanded, h.phases,
    h.in_progress⟩

theorem commandOk_requestSeal : (s.requestSeal src).CommandOk := by
  by_cases hm : s.epoch.mode = .journaling
  case neg => rwa [State.requestSeal_outside hm]
  cases hs : s.ops.slot with
  | none =>
    rw [State.requestSeal_idle hm hs]
    exact commandOk_startGather (h.idle hs).1 (h.idle hs).2 rfl
  | some sl =>
    rw [State.requestSeal_busy hm hs]
    cases hop : sl.operation with
    | stop => exact h.congr rfl rfl rfl rfl rfl rfl rfl
    | rollback => exact h.congr rfl rfl rfl rfl rfl rfl rfl
    | verify =>
      obtain ⟨hu, hq⟩ := unclaimed_stopScan h hs hop (res := .preempted)
      exact commandOk_startGather hu hq rfl
    | _ =>
      refine h.congr ?_ rfl rfl rfl rfl rfl rfl
      simp only [State.joinSeal, Option.map_map]
      rfl

/-- READ_RECORD gives up its command: no operation claims it. -/
theorem commandOk_uninspected (hi : s.inspect.isSome = true) :
    (State.uncommanded { s with inspect := none }).CommandOk := by
  have hone : s.ops.hasCommand ≠ true := fun hc => h.one_owner ⟨hi, hc⟩
  refine ⟨⟨fun hc => absurd rfl hc, ?_⟩, fun hc => absurd hc.1 nofun, nofun, h.scan_runs, h.engine_runs,
    h.verify_commanded, h.phases, h.in_progress⟩
  rintro (hc | hc)
  · exact nomatch hc
  · exact absurd hc hone

/-! ### SEAL, STOP and rollbacks end -/

/-- Without a rollback in the slot none runs. -/
theorem quiet_of_other (hs : s.ops.slot = some sl) (hop : sl.operation ≠ .rollback) : s.Quiet :=
  ⟨by simpa [hop] using (h.claims hs).engine_runs, fun hp => hop ((h.claims hs).in_progress hp)⟩

theorem commandOk_abortGather (hs : s.ops.slot = some sl) (hv : sl.operation ≠ .verify)
    (hr : sl.operation ≠ .rollback) : (s.abortGather sl).CommandOk := by
  have hq := quiet_of_other h hs hr
  unfold State.abortGather
  refine commandOk_freeSlot (unclaimed_of_completed h hs hv ?_ ?_ ?_ ?_) ⟨?_, ?_⟩
  · simp
  · simp
  · simp
  · simp
  · simpa using hq.1
  · simpa using hq.2

theorem commandOk_preemptGather (hs : s.ops.slot = some sl) (hv : sl.operation ≠ .verify)
    (hr : sl.operation ≠ .rollback) : (s.preemptGather sl).CommandOk := by
  have hq := quiet_of_other h hs hr
  refine State.commandOk_of_idle ?_ (unclaimed_of_completed h hs hv ?_ ?_ ?_ ?_) ⟨?_, ?_⟩
  all_goals simp only [State.preemptGather, State.completeIf_ops, State.completeIf_command,
    State.completeIf_fields]
  · exact hq.1
  · exact hq.2

theorem commandOk_commit (hs : s.ops.slot = some sl) (hv : sl.operation ≠ .verify)
    (hr : sl.operation ≠ .rollback) : (s.commit sl).CommandOk := by
  have hq := quiet_of_other h hs hr
  refine State.commandOk_of_idle ?_ (unclaimed_of_completed h hs hv ?_ ?_ ?_ ?_) ⟨?_, ?_⟩
  all_goals simp [State.commit, hq.1, hq.2]

theorem commandOk_limitEnd (hs : s.ops.slot = some sl) (hv : sl.operation ≠ .verify)
    (hr : sl.operation ≠ .rollback) : (s.limitEnd sl).CommandOk := by
  have hq := quiet_of_other h hs hr
  refine State.commandOk_of_idle ?_ (unclaimed_of_completed h hs hv ?_ ?_ ?_ ?_) ⟨?_, ?_⟩
  all_goals simp [State.limitEnd, hq.1, hq.2]

theorem commandOk_discard (hs : s.ops.slot = some sl) (hv : sl.operation ≠ .verify)
    (hr : sl.operation ≠ .rollback) : (s.discard sl).CommandOk := by
  have hq := quiet_of_other h hs hr
  refine State.commandOk_of_idle ?_ (unclaimed_of_completed h hs hv ?_ ?_ ?_ ?_) ⟨?_, ?_⟩
  all_goals simp [State.discard, hq.1, hq.2]

theorem commandOk_failDrain (hs : s.ops.slot = some sl) (hv : sl.operation ≠ .verify) :
    (s.failDrain sl w).CommandOk := by
  unfold State.failDrain
  refine commandOk_leaveRollback (unclaimed_of_completed h hs hv ?_ ?_ ?_ ?_) ?_
  all_goals simp

theorem commandOk_abortDrain (hs : s.ops.slot = some sl) (hv : sl.operation ≠ .verify) :
    (s.abortDrain sl).CommandOk := by
  unfold State.abortDrain
  refine commandOk_leaveRollback (unclaimed_of_completed h hs hv ?_ ?_ ?_ ?_) ?_
  all_goals simp

theorem commandOk_settle (hs : s.ops.slot = some sl) (hv : sl.operation ≠ .verify) :
    (s.settle sl w).CommandOk := by
  unfold State.settle
  refine commandOk_leaveRollback (unclaimed_of_completed h hs hv ?_ ?_ ?_ ?_) ?_
  all_goals simp

theorem commandOk_enterBroken (hs : s.ops.slot = some sl) (hv : sl.operation ≠ .verify) :
    (s.enterBroken sl w p failure).CommandOk := by
  refine State.commandOk_of_idle ?_ (unclaimed_of_completed h hs hv ?_ ?_ ?_ ?_) ⟨?_, ?_⟩
  case refine_7 => cases failure <;> simp [State.enterBroken, WalkFailure.outcome]
  all_goals simp [State.enterBroken]

theorem commandOk_checkTarget : s.checkTarget.CommandOk := by
  rcases s.checkTarget_cases with he | ⟨sl, w, hs, -, hop, -, -, he⟩ <;> rw [he]
  · exact h
  · exact commandOk_failDrain h hs (by rw [hop]; decide)

/-! ### The walk, captures, records and scans -/

theorem commandOk_restoreRead : (s.restoreRead l a).CommandOk := by
  unfold State.restoreRead
  split
  case h_2 => exact h
  case h_1 sl w hs he =>
    have hv : sl.operation ≠ .verify := by rw [h.rollback_of_engine he hs]; decide
    have walking : ∀ w' : Walk, State.CommandOk { s with engine := some w' } := fun w' =>
      h.congr rfl rfl rfl rfl rfl (by simp [he]) rfl
    split
    case h_1 => exact h
    case h_2 =>
      dsimp only
      split
      · exact (walking _).congr rfl rfl rfl rfl rfl rfl rfl
      · exact commandOk_enterBroken ((walking _).congr rfl rfl rfl rfl rfl rfl rfl) hs hv
      · split
        · unfold State.checkRecord
          split
          · exact (walking _).congr rfl rfl rfl rfl rfl rfl rfl
          · exact commandOk_enterBroken (walking _) hs hv
        · exact walking _

theorem commandOk_restoreWritten : (s.restoreWritten a).CommandOk := by
  unfold State.restoreWritten
  split
  case h_2 => exact h
  case h_1 sl w hs he =>
    have hv : sl.operation ≠ .verify := by rw [h.rollback_of_engine he hs]; decide
    split
    case h_2 => exact h
    case h_1 =>
      split
      · unfold State.restored
        dsimp only
        split
        · exact commandOk_settle (h.congr rfl rfl rfl rfl rfl rfl rfl) hs hv
        · exact h.congr rfl rfl rfl rfl rfl (by simp [State.beginRecord, he]) rfl
      · split
        · exact h.congr rfl rfl rfl rfl rfl (by simp [State.writeBack, he]) rfl
        · exact commandOk_enterBroken h hs hv

theorem commandOk_journalFault : (s.journalFault q rec l).CommandOk := by
  unfold State.journalFault
  exact commandOk_checkTarget (commandOk_requestSeal (commandOk_endRecord (commandOk_report
    (h.congr rfl rfl rfl rfl rfl rfl rfl))))

theorem commandOk_recordWritten : (s.recordWritten p l a).CommandOk := by
  unfold State.recordWritten
  split
  case h_1 => exact h
  case h_2 =>
    split
    case h_2 => exact h
    case h_1 =>
      split
      · exact commandOk_writeLine h
      · exact commandOk_endRecord h
      · split
        · exact commandOk_writeLine h
        · exact commandOk_journalFault h

theorem commandOk_dropOldest : (s.dropOldest q).CommandOk := by
  unfold State.dropOldest
  split
  · exact h.congr rfl rfl rfl rfl rfl rfl rfl
  · exact h

omit h in
theorem commandOk_relieveBy (q : BitVec 4) (n : Nat) :
    ∀ {s : State}, s.CommandOk → (s.relieveBy q n).CommandOk := by
  induction n with
  | zero => exact id
  | succ n ih =>
    intro s h
    unfold State.relieveBy
    split
    · exact ih (commandOk_dropOldest h)
    · exact h

theorem commandOk_place : (s.place t image).CommandOk := by
  unfold State.place
  refine commandOk_writeLine (h.congr ?_ ?_ ?_ ?_ ?_ ?_ ?_) <;> simp

theorem commandOk_allocate : (s.allocate t image).CommandOk := by
  unfold State.allocate State.relieve
  have hq := commandOk_relieveBy t.requester s.epoch.table.length h
  dsimp only
  split
  · split
    · exact commandOk_place (commandOk_requestSeal hq)
    · exact commandOk_endCapture (commandOk_requestSeal hq)
  · exact commandOk_place hq

theorem commandOk_captureRead : (s.captureRead q g a).CommandOk := by
  unfold State.captureRead
  split
  case h_1 => exact h
  case h_2 =>
    split
    · exact commandOk_endCapture h
    · split
      · exact commandOk_checkTarget (commandOk_allocate h)
      · exact commandOk_endCapture h

omit h in
theorem commandOk_scanOn (h : s.Scanning) : (s.scanOn sc).CommandOk := by
  obtain ⟨⟨sl, hs, hclaim⟩, hcmd, halone, hquiet⟩ := h
  obtain ⟨hop, hphase, hown⟩ : sl.operation = .verify ∧ sl.phase = .scan ∧ sl.command = true := by
    simpa [Slot.claim] using hclaim
  unfold State.scanOn
  dsimp only
  split
  · unfold State.completeScan
    refine commandOk_freeSlot ⟨?_, nofun, rfl⟩ hquiet
    simp [State.complete, halone]
  · refine State.commandOk_of_claims (sl := sl) hs ⟨?_, ?_, fun _ => hcmd, ?_, ?_, fun _ => hown, ?_, ?_⟩
    · exact ⟨fun _ => .inr hown, fun _ => hcmd⟩
    · simp [halone]
    · simp [hop]
    · simp [hop, hquiet.1]
    · simp [hop, hphase, Operation.hasPhase]
    · exact fun hp => absurd hp hquiet.2

theorem commandOk_verifyRead : (s.verifyRead l a).CommandOk := by
  unfold State.verifyRead
  split
  case h_1 => exact h
  case h_2 sc hsc =>
    obtain ⟨hslot, hcmd, halone, hquiet⟩ := h.scanning hsc
    have scanning : ∀ sc' : Scan, State.CommandOk { s with scan := some sc' } := fun sc' =>
      h.congr rfl rfl rfl rfl (by simp [hsc]) rfl rfl
    dsimp only
    split
    · exact (scanning _).congr rfl rfl rfl rfl rfl rfl rfl
    · split
      · unfold State.takeScanned
        dsimp only
        split
        · exact commandOk_scanOn ⟨hslot, hcmd, halone, hquiet⟩
        · split
          · exact commandOk_scanOn ⟨hslot, hcmd, halone, hquiet⟩
          · exact commandOk_scanOn ⟨hslot, hcmd, halone, hquiet⟩
      · exact scanning _

theorem commandOk_inspectRead : (s.inspectRead l a).CommandOk := by
  unfold State.inspectRead
  split
  case h_1 => exact h
  case h_2 i hi =>
    have inspecting : ∀ i' : Inspection, State.CommandOk { s with inspect := some i' } := fun i' =>
      h.congr rfl rfl (by simp [hi]) rfl rfl rfl rfl
    dsimp only
    split
    · exact (inspecting _).congr rfl rfl rfl rfl rfl rfl rfl
    · split
      · exact commandOk_complete ((commandOk_uninspected h (by rw [hi]; rfl)).congr rfl rfl rfl rfl rfl rfl rfl)
      · exact inspecting _

/-! ### The steps of the data path -/

theorem commandOk_forwardEnds : (s.forwardEnds q g r a).CommandOk := by
  unfold State.forwardEnds
  split
  · exact h.congr rfl rfl rfl rfl rfl rfl rfl
  · split <;> exact h.congr rfl rfl rfl rfl rfl rfl rfl

theorem commandOk_ownerActs : (s.ownerActs r a).CommandOk := by
  unfold State.ownerActs
  split
  · exact commandOk_forwardEnds (h.congr rfl rfl rfl rfl rfl rfl rfl)
  · exact commandOk_forwardEnds h
  · exact commandOk_captureRead h
  · exact commandOk_recordWritten h
  · exact commandOk_recordWritten h
  · exact commandOk_restoreRead h
  · exact commandOk_restoreRead h
  · exact commandOk_restoreWritten h
  · exact commandOk_verifyRead h
  · exact commandOk_verifyRead h
  · exact commandOk_inspectRead h
  · exact commandOk_inspectRead h
  · exact h

theorem commandOk_refuse : (s.refuse t).CommandOk := h.congr rfl rfl rfl rfl rfl rfl rfl

theorem commandOk_routeTransaction : (s.routeTransaction t).CommandOk := by
  have enter : (s.enterWaq t).CommandOk := commandOk_advance (h.congr rfl rfl rfl rfl rfl rfl rfl)
  unfold State.routeTransaction
  split
  · exact enter
  · split
    · exact enter
    · exact h.congr rfl rfl rfl rfl rfl rfl rfl

theorem commandOk_acceptTransaction : (s.acceptTransaction t).CommandOk := by
  unfold State.acceptTransaction
  split
  · exact h
  · split
    · exact commandOk_refuse h
    · split
      · exact commandOk_refuse h
      · exact h
      · exact commandOk_closeStep (commandOk_routeTransaction h)
      · exact commandOk_closeStep (commandOk_routeTransaction h)

theorem commandOk_grant : (s.grant i tie).CommandOk := by
  unfold State.grant
  split
  case isFalse => exact h
  case isTrue =>
    split
    case h_1 => exact h
    case h_2 r _ =>
      apply commandOk_closeStep
      unfold State.issue
      split
      · exact commandOk_advance (h.congr rfl rfl rfl rfl rfl rfl rfl)
      · exact h.congr rfl rfl rfl rfl rfl rfl rfl

theorem commandOk_portAnswer : (s.portAnswer i a).CommandOk := by
  unfold State.portAnswer
  split
  · exact commandOk_closeStep (commandOk_ownerActs (h.congr rfl rfl rfl rfl rfl rfl rfl))
  · exact h.congr rfl rfl rfl rfl rfl rfl rfl

theorem commandOk_timeOut : (s.timeOut i).CommandOk := by
  unfold State.timeOut
  split
  · exact commandOk_closeStep (commandOk_ownerActs (h.congr rfl rfl rfl rfl rfl rfl rfl))
  · exact h

/-! ### Timers, gathers and the FAULT line -/

theorem commandOk_epochTimerExpiry : s.epochTimerExpiry.CommandOk := by
  unfold State.epochTimerExpiry
  split
  case h_2 => exact h
  case h_3 => exact h
  case h_1 =>
    unfold State.timerExpires
    split
    · exact h.congr rfl rfl rfl rfl rfl rfl rfl
    · split
      · exact h.congr rfl rfl rfl rfl rfl rfl rfl
      · exact commandOk_requestSeal (h.congr rfl rfl rfl rfl rfl rfl rfl)

theorem commandOk_gatherEnds : s.gatherEnds.CommandOk := by
  unfold State.gatherEnds
  split
  case h_1 => exact h
  case h_2 sl hs =>
    split
    case h_1 hop =>
      have hv : sl.operation ≠ .verify := by rw [hop]; decide
      have hr : sl.operation ≠ .rollback := by rw [hop]; decide
      split
      · apply commandOk_closeStep
        split
        · exact commandOk_commit h hs hv hr
        · exact commandOk_limitEnd h hs hv hr
      · exact h
    case h_2 hop =>
      split
      · exact commandOk_closeStep (commandOk_discard h hs (by rw [hop]; decide) (by rw [hop]; decide))
      · exact h
    · exact h
    · exact h

/-- The rollback goes from DRAIN to RESTORE (R121). -/
theorem commandOk_beginRestore (hs : s.ops.slot = some sl) (hop : sl.operation = .rollback) :
    (s.beginRestore w).CommandOk := by
  obtain ⟨hrun, hone, habort, hscan, -, hver, -, -⟩ := h.claims hs
  refine State.commandOk_of_claims (sl := { sl with phase := .restore }) ?_
    ⟨hrun, hone, habort, hscan, ?_, hver, ?_, fun _ => hop⟩
  · simp [State.beginRestore, State.beginRecord, hs]
  · simp [State.beginRestore, State.beginRecord, hop]
  · simp [hop, Operation.hasPhase]

theorem commandOk_drainEnds : s.drainEnds.CommandOk := by
  unfold State.drainEnds
  split
  case h_2 => exact h
  case h_1 sl w hs _ =>
    split
    case isTrue hd =>
      apply commandOk_closeStep
      split
      · exact commandOk_settle h hs (by rw [hd.1]; decide)
      · exact commandOk_beginRestore h hs hd.1
    case isFalse => exact h

/-- What a fault displaces gives up its command (R88). -/
theorem unclaimed_displace : s.displace.Unclaimed := by
  unfold State.displace
  split
  case h_1 hs => exact (h.idle hs).1
  case h_2 sl hs =>
    have gather (hop : sl.operation ≠ .verify) : (s.preemptGather sl).Unclaimed :=
      unclaimed_of_completed h hs hop (by simp [State.preemptGather]) (by simp [State.preemptGather])
        (by simp) (by simp)
    split
    case h_1 hop => exact gather (by rw [hop]; decide)
    case h_2 hop => exact gather (by rw [hop]; decide)
    case h_3 hop => exact (unclaimed_stopScan h hs hop).1
    case h_4 hop => exact unclaimed_of_completed h hs (by rw [hop]; decide) (by simp) (by simp) (by simp) (by simp)

theorem commandOk_startFaultRollback : (s.displace.startFaultRollback c).CommandOk := by
  obtain ⟨hrun, habort, hsc⟩ := unclaimed_displace h
  unfold State.startFaultRollback
  refine (commandOk_enterFence (commandOk_enterDrain (cmd := false) ?_ ?_ habort hsc)).congr
    rfl rfl rfl rfl rfl rfl rfl
  · simpa using hrun
  · simp

theorem commandOk_upgrade : s.upgrade.CommandOk := by
  unfold State.upgrade
  refine commandOk_enterFence (h.congr ?_ rfl rfl rfl rfl rfl rfl)
  rw [Option.map_map]
  rfl

/-- The record of a part fenced without a rollback is not IN_PROGRESS (R115). -/
theorem commandOk_fenceNoCheckpoint : s.fenceNoCheckpoint.CommandOk := by
  obtain ⟨h1, h2, h3, h4, h5, h6, h7, -⟩ := commandOk_enterFence h
  exact ⟨h1, h2, h3, h4, h5, h6, h7, nofun⟩

theorem commandOk_faultJournaling : s.faultJournaling.CommandOk := by
  unfold State.faultJournaling State.reportFault
  dsimp only
  split
  · exact commandOk_upgrade (h.congr rfl rfl rfl rfl rfl rfl rfl)
  · split
    · exact commandOk_fenceNoCheckpoint (commandOk_report h)
    · exact commandOk_startFaultRollback (commandOk_report h)

theorem commandOk_faultRises : s.faultRises.CommandOk := by
  unfold State.faultRises State.dispatchFault State.reportFault
  dsimp only
  split
  · exact h
  · split
    · split
      · exact commandOk_startFenceTimer (commandOk_enterFence (h.congr rfl rfl rfl rfl rfl rfl rfl))
      · exact commandOk_faultJournaling (h.congr rfl rfl rfl rfl rfl rfl rfl)
      · exact h.congr rfl rfl rfl rfl rfl rfl rfl
    · exact h.congr rfl rfl rfl rfl rfl rfl rfl

theorem commandOk_faultFalls : s.faultFalls.CommandOk := by
  unfold State.faultFalls
  split
  · exact commandOk_examineRelease (h.congr rfl rfl rfl rfl rfl rfl rfl)
  · exact h

theorem commandOk_fenceTimerExpires : s.fenceTimerExpires.CommandOk := by
  unfold State.fenceTimerExpires
  split
  · exact h
  · exact commandOk_examineRelease (commandOk_armRelease (h.congr rfl rfl rfl rfl rfl rfl rfl))

theorem commandOk_honourAbort : s.honourAbort.CommandOk := by
  unfold State.honourAbort
  split
  case h_1 => exact h
  case h_2 sl hs =>
    split
    case h_1 hop =>
      split
      · exact commandOk_closeStep (commandOk_abortGather h hs (by rw [hop]; decide) (by rw [hop]; decide))
      · exact h
    case h_2 hop =>
      split
      · exact commandOk_closeStep (commandOk_abortGather h hs (by rw [hop]; decide) (by rw [hop]; decide))
      · exact h
    case h_3 hop =>
      split
      · exact commandOk_closeStep (commandOk_abortDrain h hs (by rw [hop]; decide))
      · exact h
    case h_4 hop =>
      split
      · obtain ⟨hu, hq⟩ := unclaimed_stopScan h hs hop (res := .aborted)
        exact commandOk_freeSlot hu hq
      · exact h

theorem commandOk_abortWritten : s.abortWritten.CommandOk := by
  unfold State.abortWritten
  split
  · exact h
  · split
    · exact h
    · exact commandOk_honourAbort (commandOk_abortPending h ‹_›)

theorem commandOk_writeTimerCtl : (s.writeTimerCtl bytes).CommandOk := by
  unfold State.writeTimerCtl
  dsimp only
  split
  · exact commandOk_requestSeal (h.congr rfl rfl rfl rfl rfl rfl rfl)
  · exact h.congr rfl rfl rfl rfl rfl rfl rfl

end

/-! ### The mailbox's commands

Each begins with a code in CMD that nothing claims yet. -/

section

variable (h : s.uncommanded.CommandOk)

include h

theorem commandOk_reject : (s.reject why).CommandOk := commandOk_complete h

theorem commandOk_busy : s.busy.CommandOk := commandOk_complete h

theorem commandOk_setJournal : s.setJournal.CommandOk := by
  unfold State.setJournal
  split
  · dsimp only
    split
    · exact commandOk_reject h
    · exact commandOk_complete (h.congr rfl rfl rfl rfl rfl rfl rfl)
  · exact commandOk_reject h

theorem commandOk_setRegion : s.setRegion.CommandOk := by
  unfold State.setRegion
  dsimp only
  split
  · exact commandOk_complete h
  · rw [State.copyIfIdle_eq]
    exact commandOk_complete (h.congr rfl rfl rfl rfl rfl rfl rfl)

theorem commandOk_setPolicy : s.setPolicy.CommandOk := by
  unfold State.setPolicy
  dsimp only
  split
  · exact commandOk_complete h
  · rw [State.copyIfIdle_eq]
    exact commandOk_complete (h.congr rfl rfl rfl rfl rfl rfl rfl)

theorem commandOk_startJournaling : s.startJournaling.CommandOk := by
  unfold State.startJournaling
  split
  · exact commandOk_reject h
  · exact commandOk_reject h
  · split
    · refine commandOk_closeStep (commandOk_complete (h.congr ?_ ?_ ?_ ?_ ?_ ?_ ?_)) <;>
        simp [State.uncommanded]
    · exact commandOk_reject h

/-- Nothing else claims the command that was taken. -/
theorem State.CommandOk.unclaimed_taken : s.inspect = none ∧ s.ops.hasCommand = false := by
  have := h.running
  simpa [State.uncommanded, OpCtl.hasCommand] using this

/-- SEAL or STOP takes an idle slot for the mailbox's command. -/
theorem commandOk_commandGather (hc : s.mailbox.cmd ≠ 0) (hs : s.ops.slot = none)
    (hop : op.hasPhase .gather = true) : (s.startGather op src sources true).CommandOk := by
  obtain ⟨hi, -⟩ := h.unclaimed_taken
  obtain ⟨⟨-, -, hsc⟩, he, hr⟩ := h.idle hs
  refine State.commandOk_of_claims rfl ⟨?_, ?_, fun _ => hc, ?_, ?_, fun _ => rfl, hop, ?_⟩
  · exact ⟨fun _ => .inr rfl, fun _ => hc⟩
  · simp [State.startGather, hi]
  · have hscan : s.scan = none := hsc
    simp only [State.startGather, hscan, Option.isSome_none, Bool.false_eq_true, false_iff]
    rintro rfl
    exact nomatch hop
  · have hengine : s.engine = none := he
    simp only [State.startGather, hengine, Option.isSome_none, Bool.false_eq_true, false_iff]
    rintro rfl
    exact nomatch hop
  · exact fun hp => absurd hp hr

theorem commandOk_stopJournaling (hc : s.mailbox.cmd ≠ 0) : s.stopJournaling.CommandOk := by
  unfold State.stopJournaling
  split
  · exact commandOk_complete h
  · exact commandOk_reject h
  · split
    case h_1 hs => exact commandOk_commandGather h hc hs rfl
    case h_2 => exact commandOk_busy h

/-- The command joins the seal in the slot (R87). -/
theorem commandOk_joined (hc : s.mailbox.cmd ≠ 0) (hs : s.ops.slot = some sl) :
    State.CommandOk { s with ops := { s.ops with slot := some { sl with command := true } } } := by
  obtain ⟨hi, -⟩ := h.unclaimed_taken
  obtain ⟨-, -, -, hscan, hengine, -, hphase, hprog⟩ := h.claims hs
  refine State.commandOk_of_claims rfl ⟨?_, ?_, fun _ => hc, hscan, hengine, fun _ => rfl, hphase, hprog⟩
  · exact ⟨fun _ => .inr rfl, fun _ => hc⟩
  · simp [hi]

theorem commandOk_sealEpoch (hc : s.mailbox.cmd ≠ 0) : s.sealEpoch.CommandOk := by
  unfold State.sealEpoch
  split
  · exact commandOk_reject h
  · exact commandOk_reject h
  · split
    case h_1 hs => exact commandOk_commandGather h hc hs rfl
    case h_2 sl hs =>
      split
      case h_1 => exact commandOk_joined h hc hs
      all_goals exact commandOk_busy h

/-- A rollback starts for the command on a slot whose operation has no command (R116). -/
theorem commandOk_startCommandRollback (hc : s.mailbox.cmd ≠ 0) (hsc : s.scan = none) :
    (s.startCommandRollback c).CommandOk := by
  obtain ⟨hi, -⟩ := h.unclaimed_taken
  have started (moved : Bool) : (s.enterDrain .command .command c true moved).CommandOk :=
    commandOk_enterDrain ⟨fun _ => .inr rfl, fun _ => hc⟩ (by simp [hi]) (fun _ => hc) hsc
  unfold State.startCommandRollback
  dsimp only
  split
  · exact (started _).congr rfl rfl rfl rfl rfl rfl rfl
  · exact started _

theorem commandOk_requestRollback (hc : s.mailbox.cmd ≠ 0) : (s.requestRollback c).CommandOk := by
  unfold State.requestRollback
  split
  case h_1 hs => exact commandOk_startCommandRollback h hc (h.idle hs).1.no_scan
  case h_2 sl hs =>
    split
    case h_1 hop =>
      obtain ⟨hi, -⟩ := h.unclaimed_taken
      obtain ⟨-, -, -, hscan, hengine, -, -, hprog⟩ := h.claims hs
      have hsc : s.scan = none := by simpa [hop, State.uncommanded] using hscan
      refine commandOk_startCommandRollback (State.commandOk_of_idle rfl ⟨?_, nofun, hsc⟩ ⟨?_, ?_⟩) hc hsc
      · simp [State.uncommanded, hi]
      · simpa [hop, State.uncommanded, State.preemptGather] using hengine
      · intro hp
        have : sl.operation = .rollback := hprog (by simpa [State.uncommanded, State.preemptGather] using hp)
        rw [hop] at this
        exact nomatch this
    all_goals exact commandOk_busy h

theorem commandOk_rollbackTo (hc : s.mailbox.cmd ≠ 0) : s.rollbackTo.CommandOk := by
  unfold State.rollbackTo
  split
  · exact commandOk_reject h
  · exact commandOk_reject h
  · split
    · split
      · exact commandOk_reject h
      · split
        · exact commandOk_reject h
        · exact commandOk_reject h
        · exact commandOk_requestRollback h hc
    · exact commandOk_reject h

theorem commandOk_verifyJournal (hc : s.mailbox.cmd ≠ 0) : s.verifyJournal.CommandOk := by
  unfold State.verifyJournal
  split
  · exact commandOk_reject h
  · exact commandOk_reject h
  · split
    case h_1 hs =>
      obtain ⟨hi, -⟩ := h.unclaimed_taken
      exact commandOk_closeStep (commandOk_scanOn ⟨⟨_, rfl, rfl⟩, hc, hi, (h.idle hs).2⟩)
    case h_2 => exact commandOk_busy h

theorem commandOk_releaseFence : s.releaseFence.CommandOk := by
  unfold State.releaseFence
  split
  · exact commandOk_reject h
  · dsimp only
    split
    · refine commandOk_complete (h.congr ?_ ?_ ?_ ?_ ?_ ?_ ?_) <;> simp [State.uncommanded]
    · exact commandOk_complete h

theorem commandOk_recoverPart : s.recoverPart.CommandOk := by
  unfold State.recoverPart
  split
  · exact commandOk_reject h
  · exact commandOk_reject h
  · refine commandOk_complete (h.congr ?_ ?_ ?_ ?_ ?_ ?_ ?_) <;> simp [State.uncommanded]

theorem commandOk_readRecordAt (hc : s.mailbox.cmd ≠ 0) : s.readRecordAt.CommandOk := by
  obtain ⟨-, hown⟩ := h.unclaimed_taken
  have inspecting (i : Inspection) : State.CommandOk { s with inspect := some i } :=
    ⟨⟨fun _ => .inl rfl, fun _ => hc⟩, fun hb => by simp [hown] at hb, fun _ => hc, h.scan_runs,
      h.engine_runs, h.verify_commanded, h.phases, h.in_progress⟩
  unfold State.readRecordAt
  split
  · exact commandOk_reject h
  · dsimp only
    split
    · exact commandOk_closeStep ((inspecting _).congr rfl rfl rfl rfl rfl rfl rfl)
    · exact commandOk_reject h

end

/-- A command is taken only while CMD holds none, so nothing claims it. -/
theorem State.CommandOk.taken (h : s.CommandOk) (hc : s.mailbox.cmd = 0) (code : Byte) :
    (s.taken code).uncommanded.CommandOk := by
  have habort : s.ops.abortPending = false := by
    cases ha : s.ops.abortPending
    · rfl
    · exact absurd hc (h.abort_needs_command ha)
  exact h.congr rfl hc.symm rfl habort.symm rfl rfl rfl

end Operations

/-- What each command does to the running command and its owner. -/
theorem commandOk_stepKeeps : StepKeeps State.CommandOk State.CommandOk where
  keep h := h
  pending _ h := h.congr rfl rfl rfl rfl rfl rfl rfl
  select _ _ h := h.congr rfl rfl rfl rfl rfl rfl rfl
  tick _ h := h.congr rfl rfl rfl rfl rfl rfl rfl
  reset _ _ _ hr := State.commandOk_of_idle rfl ⟨⟨fun hc => absurd rfl hc, nofun⟩, nofun, rfl⟩ ⟨rfl, hr⟩
  phase _ h := h.congr rfl rfl rfl rfl rfl rfl rfl
  endReset _ _ _ _ h := h.congr rfl rfl rfl rfl rfl rfl rfl
  acceptTransaction _ h := commandOk_acceptTransaction h
  grant _ _ h := commandOk_grant h
  portAnswer _ _ h := commandOk_portAnswer h
  timeOut _ h := commandOk_timeOut h
  freeIdent _ h := h.congr rfl rfl rfl rfl rfl rfl rfl
  epochTimerExpiry h := commandOk_epochTimerExpiry h
  gatherEnds h := commandOk_gatherEnds h
  drainEnds h := commandOk_drainEnds h
  faultRises h := commandOk_faultRises h
  faultFalls h := commandOk_faultFalls h
  fenceTimerExpires h := commandOk_fenceTimerExpires h
  refuseCommand _ h := commandOk_report h
  setJournal h hc _ := commandOk_setJournal (h.taken hc _)
  setRegion h hc _ := commandOk_setRegion (h.taken hc _)
  setPolicy h hc _ := commandOk_setPolicy (h.taken hc _)
  startJournaling h hc _ := commandOk_startJournaling (h.taken hc _)
  stopJournaling h hc hn := commandOk_stopJournaling (h.taken hc _) hn
  sealEpoch h hc hn := commandOk_sealEpoch (h.taken hc _) hn
  rollbackTo h hc hn := commandOk_rollbackTo (h.taken hc _) hn
  verifyJournal h hc hn := commandOk_verifyJournal (h.taken hc _) hn
  releaseFence h hc _ := commandOk_releaseFence (h.taken hc _)
  recoverPart h hc _ := commandOk_recoverPart (h.taken hc _)
  readTable h hc _ := commandOk_complete (h.taken hc _)
  readRecordAt h hc hn := commandOk_readRecordAt (h.taken hc _) hn
  rejectCode h hc _ := commandOk_reject (h.taken hc _)
  abortWritten h := commandOk_abortWritten h
  writeTimerCtl _ h := commandOk_writeTimerCtl h
  writeEventAck _ h := h.congr rfl rfl rfl rfl rfl rfl rfl
  writeAlertMask _ h := h.congr rfl rfl rfl rfl rfl rfl rfl
  writeParam _ h := h.congr rfl rfl rfl rfl rfl rfl rfl

/-- Settles O58: `State.CommandOk` is kept by every operation, and `StepKeeps` runs through the commands. -/
theorem everyStepKeepsTheRunningCommand : Obligations.EveryStepKeepsTheRunningCommand :=
  fun _ _ h ht => commandOk_stepKeeps.step h ht

end Sys2Proof.Machine
end

section
/-! PROOFS. The bounded resources: the M port, the LTT, the WAQ and the Capture Buffer stay within their
bounds, and a step ends with the free Capture Buffer entries granted. O56. -/

namespace Sys2Proof.Machine

set_option Elab.async false

/-! ### The M port -/

/-- The bounds of the M port (R146) and the order of its waiting set (R149). -/
structure MPort.Sound (m : MPort) : Prop where
  slot_bound : m.outstanding.length ≤ 64
  idents_used_once : (m.outstanding.map (·.ident) ++ m.withheld.map (·.ident)).Nodup
  ages_sorted : m.waiting.Pairwise fun x y => x.joined ≤ y.joined
  ages_past : ∀ r ∈ m.waiting, r.joined ≤ m.ageClock

namespace MPort.Sound

variable {m m' : MPort}

/-- Requests may leave, change owner or be counted down, identifiers may be freed, and the age clock may go on. -/
theorem shrink (h : m.Sound)
    (hw : (m'.waiting.map (·.joined)).Sublist (m.waiting.map (·.joined)))
    (ho : (m'.outstanding.map (·.ident)).Sublist (m.outstanding.map (·.ident)))
    (hi : (m'.withheld.map (·.ident)).Sublist (m.withheld.map (·.ident)))
    (ha : m.ageClock ≤ m'.ageClock) : m'.Sound where
  slot_bound := by
    have := ho.length_le
    simp only [List.length_map] at this
    exact this.trans h.slot_bound
  idents_used_once := h.idents_used_once.sublist (ho.append hi)
  ages_sorted := List.pairwise_map.mp ((List.pairwise_map.mpr h.ages_sorted).sublist hw)
  ages_past r hr := by
    obtain ⟨x, hx, he⟩ := List.mem_map.mp (hw.subset (List.mem_map_of_mem (f := (·.joined)) hr))
    exact he.symm.le.trans ((h.ages_past x hx).trans ha)

/-- A request joins with the age clock, so it is the youngest (R149). -/
theorem join (h : m.Sound) {r : Request} (hr : r.joined = m.ageClock) :
    MPort.Sound { m with waiting := m.waiting ++ [r] } where
  slot_bound := h.slot_bound
  idents_used_once := h.idents_used_once
  ages_sorted := by
    refine List.pairwise_append.mpr ⟨h.ages_sorted, List.pairwise_singleton _ _, fun x hx y hy => ?_⟩
    rw [List.mem_singleton.mp hy, hr]
    exact h.ages_past x hx
  ages_past x hx := by
    rcases List.mem_append.mp hx with hx | hx
    · exact h.ages_past x hx
    · rw [List.mem_singleton.mp hx, hr]

theorem identFree_iff (m : MPort) (i : BitVec 8) :
    m.identFree i = true ↔ i ∉ m.outstanding.map (·.ident) ∧ i ∉ m.withheld.map (·.ident) := by
  simp [MPort.identFree]

/-- A granted request takes a free slot and a free identifier (R146). -/
theorem send (h : m.Sound) {i : BitVec 8} {r : Request} {n : Nat} (hs : m.slotFree = true)
    (hi : m.identFree i = true) :
    MPort.Sound { m with waiting := m.waiting.erase r, outstanding := m.outstanding ++ [⟨i, r, n⟩] } where
  slot_bound := by
    have : m.outstanding.length < 64 := of_decide_eq_true hs
    simp only [List.length_append, List.length_singleton]
    omega
  idents_used_once := by
    obtain ⟨ho, hw⟩ := (identFree_iff m i).mp hi
    have := List.nodup_middle.mpr (List.nodup_cons.mpr ⟨by simp only [List.mem_append]; tauto, h.idents_used_once⟩)
    simpa using this
  ages_sorted := h.ages_sorted.sublist List.erase_sublist
  ages_past x hx := h.ages_past x (List.mem_of_mem_erase hx)

/-- The identifier of an ended request is freed (R146). -/
theorem freeRequest (h : m.Sound) (i : BitVec 8) :
    MPort.Sound { m with outstanding := m.outstanding.filter fun o => o.ident != i } :=
  h.shrink (.refl _) (List.filter_sublist.map _) (.refl _) le_rfl

/-- The identifier of a timed-out request passes from the outstanding to the withheld ones (R146). -/
theorem withhold (h : m.Sound) {i : BitVec 8} (hi : i ∈ m.outstanding.map (·.ident)) {n : Nat} :
    MPort.Sound { m with
      outstanding := m.outstanding.filter fun o => o.ident != i
      withheld := m.withheld ++ [⟨i, n⟩] } where
  slot_bound := (h.freeRequest i).slot_bound
  idents_used_once := by
    have hn := (h.freeRequest i).idents_used_once
    have hw : i ∉ m.withheld.map (·.ident) := fun hw =>
      (List.nodup_append.mp h.idents_used_once).2.2 i hi i hw rfl
    have hf : i ∉ (m.outstanding.filter fun o => o.ident != i).map (·.ident) := by simp
    have := List.nodup_append.mpr ⟨hn, List.nodup_singleton i, fun a ha b hb hab => ?_⟩
    · simpa using this
    · rw [List.mem_singleton.mp hb] at hab
      subst hab
      rcases List.mem_append.mp ha with ha | ha
      · exact hf ha
      · exact hw ha
  ages_sorted := h.ages_sorted
  ages_past := h.ages_past

end MPort.Sound

/-! ### The LTT -/

/-- The LTT is strictly rising with at most four lines of a set (R65). -/
structure LttOk (ltt : List LineIndex) : Prop where
  sorted : ltt.Pairwise (· < ·)
  sets : ∀ l : LineIndex, (ltt.countP fun x => lttSet x == lttSet l) ≤ 4

theorem LttOk.nil : LttOk [] := ⟨List.Pairwise.nil, fun _ => Nat.zero_le _⟩

theorem countP_insertLine_le (p : LineIndex → Bool) (l : LineIndex) (xs : List LineIndex) :
    (insertLine l xs).countP p ≤ xs.countP p + if p l then 1 else 0 := by
  induction xs with
  | nil => simp [insertLine, List.countP_cons]
  | cons x xs ih =>
    unfold insertLine
    split
    · rw [List.countP_cons]
    · split
      · exact Nat.le_add_right _ _
      · rw [List.countP_cons, List.countP_cons]
        omega

/-- A line enters a set that has a way free (R67). -/
theorem LttOk.insert {ltt : List LineIndex} (h : LttOk ltt) {l : LineIndex} (hf : lttFull ltt l = false) :
    LttOk (insertLine l ltt) where
  sorted := insertLine_pairwise l h.sorted
  sets x := by
    have hle := countP_insertLine_le (fun y => lttSet y == lttSet x) l ltt
    have hx := h.sets x
    split at hle
    case isFalse => omega
    case isTrue hl =>
      have hfull : ltt.countP (fun y => lttSet y == lttSet l) < 4 :=
        Nat.lt_of_not_le (of_decide_eq_false hf)
      rw [beq_iff_eq] at hl
      rw [hl] at hfull
      omega

/-! ### The bounds, and the grants -/

/-- The bounds of `State.ResourcesOk`, which hold within a step as well. -/
structure State.BoundsOk (s : State) : Prop where
  waq_bound : s.waq.length ≤ 32
  capture_bound : s.captures.length ≤ 16
  mport : s.mport.Sound
  ltt : LttOk s.ltt

/-- From `s` to `t` no entry came to wait for a capture, and the Capture Buffer stayed. -/
def State.WaitsAs (s t : State) : Prop :=
  t.captures = s.captures ∧ ∀ e ∈ t.waq, e.state = .captureWait → ∃ e' ∈ s.waq, e'.state = .captureWait

section

variable {s t u : State}

theorem State.resourcesOk_iff : s.ResourcesOk ↔ s.BoundsOk ∧ s.capturesGranted :=
  ⟨fun ⟨h1, h2, h3, h4, h5, h6, h7, h8, h9⟩ => ⟨⟨h1, h2, ⟨h4, h5, h8, h9⟩, ⟨h6, h7⟩⟩, h3⟩,
    fun ⟨⟨h1, h2, ⟨h4, h5, h8, h9⟩, ⟨h6, h7⟩⟩, h3⟩ => ⟨h1, h2, h3, h4, h5, h6, h7, h8, h9⟩⟩

theorem State.ResourcesOk.bounds (h : s.ResourcesOk) : s.BoundsOk := (State.resourcesOk_iff.mp h).1

theorem State.BoundsOk.congr (h : s.BoundsOk) (hw : t.waq.length ≤ s.waq.length)
    (hc : t.captures.length ≤ s.captures.length) (hm : t.mport = s.mport) (hl : t.ltt = s.ltt) :
    t.BoundsOk :=
  ⟨hw.trans h.waq_bound, hc.trans h.capture_bound, hm ▸ h.mport, hl ▸ h.ltt⟩

theorem State.WaitsAs.of_eq (hc : t.captures = s.captures) (hw : t.waq = s.waq) : s.WaitsAs t :=
  ⟨hc, fun e he hs => ⟨e, hw ▸ he, hs⟩⟩

theorem State.WaitsAs.trans (h : s.WaitsAs t) (h' : t.WaitsAs u) : s.WaitsAs u := by
  refine ⟨h'.1.trans h.1, fun e he hs => ?_⟩
  obtain ⟨e', he', hs'⟩ := h'.2 e he hs
  exact h.2 e' he' hs'

/-- Entries that change beside their state come to wait for nothing. -/
theorem State.WaitsAs.of_map (hc : t.captures = s.captures) (f : WaqEntry → WaqEntry)
    (hf : ∀ e, (f e).state = e.state) (hw : t.waq = s.waq.map f) : s.WaitsAs t := by
  refine ⟨hc, fun e he hs => ?_⟩
  rw [hw] at he
  obtain ⟨e', he', rfl⟩ := List.mem_map.mp he
  exact ⟨e', he', (hf e').symm.trans hs⟩

theorem State.ResourcesOk.of_waitsAs (h : s.ResourcesOk) (hb : t.BoundsOk) (hw : s.WaitsAs t) :
    t.ResourcesOk := by
  refine State.resourcesOk_iff.mpr ⟨hb, ?_⟩
  rcases h.granted with hg | hg
  · exact .inl (by rw [hw.1]; exact hg)
  · refine .inr fun e he hs => ?_
    obtain ⟨e', he', hs'⟩ := hw.2 e he hs
    exact hg e' he' hs'

/-- What changes neither the WAQ, the Capture Buffer, the M port nor the LTT keeps the resources. -/
theorem State.ResourcesOk.congr (h : s.ResourcesOk) (hw : t.waq = s.waq) (hc : t.captures = s.captures)
    (hm : t.mport = s.mport) (hl : t.ltt = s.ltt) : t.ResourcesOk :=
  h.of_waitsAs (h.bounds.congr (by rw [hw]) (by rw [hc]) hm hl) (.of_eq hc hw)

end

/-! ### The operations of the part -/

section Operations

variable {s : State} {sl : Slot} {w : Walk} {b : Bool} {res : CommandResult} {why : Reason} {d : BitVec 768}
  {rep : Report} {src : Source} {t : Transaction} {k : EventKind} {p n m tie : Nat} {failure : WalkFailure}
  {l : RecordLine} {a : MemAnswer} {rec : Record} {q : BitVec 4} {g : BitVec 6} {image header : Line}
  {sc : Scan} {r : Request} {i : BitVec 8} {c : Checkpoint} {cause : ReleaseCause} {code index : Byte}
  {bytes : List Byte} {target : WriteTarget} {op : Operation} {sources : SealSources} {cmd : Bool}
  {trig : Trigger} {o o' : Owner} {kind : Access} {addr : Addr} {mask : BitVec 64} {data : Line}
  {st : WaqState} {e : WaqEntry}

section

variable (h : s.BoundsOk)

include h

theorem boundsOk_join : (s.join o kind addr n mask data).BoundsOk :=
  ⟨h.waq_bound, h.capture_bound, h.mport.join rfl, h.ltt⟩

theorem boundsOk_joinRecordReads : (s.joinRecordReads o o' p).BoundsOk := boundsOk_join (boundsOk_join h)

theorem boundsOk_setWaqState : (s.setWaqState q g st).BoundsOk :=
  h.congr (by simp) le_rfl rfl rfl

theorem boundsOk_removeWaq : (s.removeWaq q g).BoundsOk :=
  h.congr (by simpa using List.length_filter_le _ _) le_rfl rfl rfl

theorem boundsOk_makeReady : (s.makeReady t).BoundsOk := by
  unfold State.makeReady State.joinForward
  split
  · exact boundsOk_join (boundsOk_setWaqState h)
  · exact boundsOk_join (boundsOk_setWaqState h)

theorem boundsOk_refuse : (s.refuse t).BoundsOk := h.congr le_rfl le_rfl rfl rfl

theorem boundsOk_report : (s.report rep).BoundsOk := h.congr le_rfl le_rfl rfl rfl

theorem boundsOk_settleHead : (s.settleHead e).BoundsOk := by
  rcases s.settleHead_cases e with ⟨-, -, he⟩ | ⟨-, he⟩ | ⟨-, -, -, -, he⟩ <;> rw [he]
  · exact boundsOk_refuse (boundsOk_removeWaq h)
  · exact boundsOk_makeReady h
  · exact boundsOk_setWaqState h

omit h in
theorem boundsOk_advanceBy (n : Nat) : ∀ {s : State}, s.BoundsOk → (s.advanceBy n).BoundsOk := by
  induction n with
  | zero => exact id
  | succ n ih =>
    intro s h
    unfold State.advanceBy
    split
    · exact h
    · exact ih (boundsOk_settleHead h)

theorem boundsOk_advance : s.advance.BoundsOk := boundsOk_advanceBy _ h

theorem boundsOk_grantCapture (hc : s.captures.length < 16) : (s.grantCapture t).BoundsOk := by
  unfold State.grantCapture
  refine boundsOk_join (boundsOk_setWaqState ⟨h.waq_bound, ?_, h.mport, h.ltt⟩)
  simpa using hc

omit h in
/-- Sixteen grants fill the Capture Buffer or leave no write waiting (R71). -/
theorem boundsOk_grantCapturesBy (n : Nat) : ∀ {s : State}, s.BoundsOk →
    (s.grantCapturesBy n).BoundsOk ∧ (16 ≤ s.captures.length + n → (s.grantCapturesBy n).capturesGranted) := by
  induction n with
  | zero => exact fun h => ⟨h, fun hn => .inl hn⟩
  | succ n ih =>
    intro s h
    unfold State.grantCapturesBy
    split
    case isFalse hc => exact ⟨h, fun _ => .inl (Nat.le_of_not_lt hc)⟩
    case isTrue hc =>
      split
      case h_1 hnone =>
        refine ⟨h, fun _ => .inr fun e he => ?_⟩
        simpa using List.find?_eq_none.mp hnone e he
      case h_2 e _ =>
        obtain ⟨hb, hg⟩ := ih (boundsOk_grantCapture (t := e.txn) h hc)
        refine ⟨hb, fun hn => hg ?_⟩
        simp only [State.grantCapture_captures, List.length_append, List.length_singleton]
        omega

theorem boundsOk_grantCaptures : s.grantCaptures.BoundsOk := (boundsOk_grantCapturesBy _ h).1

omit h in
/-- The grants leave no write waiting beside a free entry (R71). -/
theorem State.BoundsOk.granted (h : s.BoundsOk) : s.grantCaptures.capturesGranted :=
  (boundsOk_grantCapturesBy _ h).2 (Nat.le_add_left _ _)

/-- A step that may have added requests ends with its grants. -/
theorem resourcesOk_closeStep : s.closeStep.ResourcesOk := by
  have hg := boundsOk_grantCaptures h
  exact State.resourcesOk_iff.mpr ⟨⟨hg.waq_bound, hg.capture_bound,
    hg.mport.shrink (.refl _) (.refl _) (.refl _) (Nat.le_succ _), hg.ltt⟩, h.granted⟩

theorem boundsOk_complete : (s.complete res why d).BoundsOk := h.congr le_rfl le_rfl rfl rfl

theorem boundsOk_completeIf : (s.completeIf b res why d).BoundsOk :=
  h.congr (by simp) (by simp) (by simp) (by simp)

/-- Requests that leave the waiting set keep the bounds. -/
theorem boundsOk_fewer {waiting : List Request} (hw : waiting.Sublist s.mport.waiting) {waq : List WaqEntry}
    (hq : waq.length ≤ s.waq.length) :
    State.BoundsOk { s with waq := waq, mport := { s.mport with waiting := waiting } } :=
  ⟨hq.trans h.waq_bound, h.capture_bound, h.mport.shrink (hw.map _) (.refl _) (.refl _) le_rfl, h.ltt⟩

theorem boundsOk_enterFence : s.enterFence.BoundsOk := by
  by_cases hg : s.gate.state = .fence
  · rw [State.enterFence_of_fence hg]
    exact h
  · rw [State.enterFence_of_open hg, State.fenceRemovals_eq]
    refine (boundsOk_fewer (waq := (s.waq.filter fun e => !fenceRemoves e).map fun e =>
      if e.state = .capturing then { e with marked := true } else e) h List.filter_sublist ?_).congr
      le_rfl le_rfl rfl rfl
    simpa using List.length_filter_le _ _

theorem boundsOk_openHold : s.openHold.BoundsOk := by
  unfold State.openHold
  exact boundsOk_advance (h.congr (by simp) le_rfl rfl rfl)

theorem boundsOk_examineRelease : s.examineRelease.BoundsOk :=
  h.congr (by simp) (by simp) (by simp) (by simp)

theorem boundsOk_abandon : (s.abandon o).BoundsOk := by
  refine ⟨h.waq_bound, h.capture_bound, h.mport.shrink ?_ ?_ (.refl _) le_rfl, h.ltt⟩
  · simp only [State.abandon]
    split
    · split
      · rw [List.map_map]
        refine (List.map_congr_left fun r _ => ?_).symm ▸ List.Sublist.refl _
        simp only [Function.comp_apply]
        split <;> rfl
      · exact List.filter_sublist.map _
    · exact .refl _
  · simp only [State.abandon, List.map_map]
    refine (List.map_congr_left fun x _ => ?_).symm ▸ List.Sublist.refl _
    simp only [Function.comp_apply]
    split <;> rfl

theorem boundsOk_stopScan : (s.stopScan res).BoundsOk := by
  unfold State.stopScan
  split
  · exact h
  · exact boundsOk_complete ((boundsOk_abandon (boundsOk_abandon h)).congr le_rfl le_rfl rfl rfl)

theorem boundsOk_startGather : (s.startGather op src sources cmd).BoundsOk :=
  h.congr (by simp [State.startGather]) le_rfl rfl rfl

theorem boundsOk_requestSeal : (s.requestSeal src).BoundsOk := by
  unfold State.requestSeal
  split
  · split
    · exact boundsOk_startGather h
    · split
      · exact h.congr le_rfl le_rfl rfl rfl
      · exact h.congr le_rfl le_rfl rfl rfl
      · exact h.congr le_rfl le_rfl rfl rfl
      · exact boundsOk_startGather (boundsOk_stopScan h)
  · exact h

theorem boundsOk_freeSlot : s.freeSlot.BoundsOk := by
  unfold State.freeSlot
  dsimp only
  split
  · split
    · exact h.congr le_rfl le_rfl rfl rfl
    · exact boundsOk_startGather (h.congr le_rfl le_rfl rfl rfl)
  · exact h.congr le_rfl le_rfl rfl rfl

theorem boundsOk_endHold : (s.endHold sl).BoundsOk := by
  unfold State.endHold
  split
  · exact boundsOk_openHold h
  · exact h

theorem boundsOk_redecide : s.redecide.BoundsOk := by
  unfold State.redecide
  exact boundsOk_advance (boundsOk_fewer h List.filter_sublist (by simp))

theorem boundsOk_epochOpen : s.epochOpen.BoundsOk := by
  unfold State.epochOpen
  exact boundsOk_redecide ⟨h.waq_bound, h.capture_bound, h.mport, .nil⟩

theorem boundsOk_endRollbackGate : (s.endRollbackGate sl).BoundsOk := by
  unfold State.endRollbackGate
  split
  · exact h.congr le_rfl le_rfl rfl rfl
  · split
    · exact boundsOk_openHold h
    · exact h

theorem boundsOk_leaveRollback : s.leaveRollback.BoundsOk := by
  unfold State.leaveRollback
  exact boundsOk_examineRelease (boundsOk_freeSlot (h.congr le_rfl le_rfl rfl rfl))

/-! ### Operations end -/

theorem boundsOk_abortGather : (s.abortGather sl).BoundsOk := by
  unfold State.abortGather
  exact boundsOk_freeSlot (boundsOk_completeIf ((boundsOk_endHold h).congr le_rfl le_rfl rfl rfl))

theorem boundsOk_preemptGather : (s.preemptGather sl).BoundsOk := by
  unfold State.preemptGather
  exact boundsOk_completeIf (h.congr le_rfl le_rfl rfl rfl)

theorem boundsOk_commit : (s.commit sl).BoundsOk := by
  unfold State.commit
  refine boundsOk_completeIf ((boundsOk_endHold (sl := sl) (boundsOk_epochOpen (boundsOk_report
    (h.congr ?_ ?_ ?_ ?_)))).congr le_rfl le_rfl rfl rfl) <;> rfl

theorem boundsOk_limitEnd : (s.limitEnd sl).BoundsOk := by
  unfold State.limitEnd
  exact (boundsOk_endHold (sl := sl) (boundsOk_completeIf (boundsOk_report h))).congr le_rfl le_rfl rfl rfl

theorem boundsOk_discard : (s.discard sl).BoundsOk := by
  unfold State.discard
  refine boundsOk_completeIf (State.BoundsOk.congr (boundsOk_endHold (sl := sl) ?_) le_rfl le_rfl rfl rfl)
  exact ⟨h.waq_bound, h.capture_bound, h.mport, .nil⟩

theorem boundsOk_failDrain : (s.failDrain sl w).BoundsOk := by
  unfold State.failDrain
  exact boundsOk_leaveRollback (boundsOk_completeIf ((boundsOk_endRollbackGate (sl := sl) h).congr
    le_rfl le_rfl rfl rfl))

theorem boundsOk_abortDrain : (s.abortDrain sl).BoundsOk := by
  unfold State.abortDrain
  exact boundsOk_leaveRollback (boundsOk_completeIf ((boundsOk_endRollbackGate (sl := sl) h).congr
    le_rfl le_rfl rfl rfl))

theorem boundsOk_checkTarget : s.checkTarget.BoundsOk := by
  rcases s.checkTarget_cases with he | ⟨_, _, -, -, -, -, -, he⟩ <;> rw [he]
  · exact h
  · exact boundsOk_failDrain h

theorem boundsOk_settle : (s.settle sl w).BoundsOk := by
  have hr : (s.rewound w).BoundsOk := h.congr le_rfl le_rfl rfl rfl
  have ho : (s.reopened w).BoundsOk := (boundsOk_epochOpen hr).congr le_rfl le_rfl rfl rfl
  rw [State.settle_eq]
  exact boundsOk_leaveRollback (boundsOk_completeIf ((boundsOk_endRollbackGate (sl := sl) ho).congr
    le_rfl le_rfl rfl rfl))

theorem boundsOk_enterBroken : (s.enterBroken sl w p failure).BoundsOk := by
  unfold State.enterBroken
  have hf : (State.enterFence { s with epoch := { s.epoch with mode := .broken } }).BoundsOk :=
    boundsOk_enterFence (h.congr le_rfl le_rfl rfl rfl)
  exact boundsOk_completeIf ⟨hf.waq_bound, hf.capture_bound, hf.mport, .nil⟩

/-! ### The walk, captures, records and scans -/

theorem boundsOk_writeBack : (s.writeBack w image header n).BoundsOk :=
  boundsOk_join (s := { s with engine := some { w with writeAttempt := n } }) (h.congr le_rfl le_rfl rfl rfl)

theorem boundsOk_beginRecord : (s.beginRecord w p).BoundsOk := by
  unfold State.beginRecord
  exact boundsOk_joinRecordReads (h.congr le_rfl le_rfl rfl rfl)

theorem boundsOk_restoreRead : (s.restoreRead l a).BoundsOk := by
  have engaged (w' : Walk) : State.BoundsOk { s with engine := some w' } := h.congr le_rfl le_rfl rfl rfl
  unfold State.restoreRead
  split
  case h_2 => exact h
  case h_1 =>
    split
    case h_1 => exact h
    case h_2 =>
      dsimp only
      split
      · exact boundsOk_join (engaged _)
      · exact boundsOk_enterBroken (boundsOk_abandon (engaged _))
      · split
        · unfold State.checkRecord
          split
          · exact boundsOk_writeBack (engaged _)
          · exact boundsOk_enterBroken (engaged _)
        · exact engaged _

theorem boundsOk_restoreWritten : (s.restoreWritten a).BoundsOk := by
  unfold State.restoreWritten
  split
  case h_2 => exact h
  case h_1 =>
    split
    case h_2 => exact h
    case h_1 =>
      split
      · unfold State.restored
        dsimp only
        split
        · exact boundsOk_settle (h.congr le_rfl le_rfl rfl rfl)
        · exact boundsOk_beginRecord (h.congr le_rfl le_rfl rfl rfl)
      · split
        · exact boundsOk_writeBack h
        · exact boundsOk_enterBroken h

theorem boundsOk_writeLine : (s.writeLine rec l n).BoundsOk := by
  have held : State.BoundsOk { s with
      captures := s.captures.map fun c =>
        if c.holds rec.position then { c with state := .writing rec l n } else c } :=
    h.congr le_rfl (by simp) rfl rfl
  cases l
  · exact boundsOk_join held
  · exact boundsOk_join held

theorem boundsOk_endRecord : (s.endRecord p).BoundsOk := by
  unfold State.endRecord
  exact boundsOk_grantCaptures (h.congr le_rfl (List.length_filter_le _ _) rfl rfl)

theorem boundsOk_endCapture : (s.endCapture t k).BoundsOk := by
  unfold State.endCapture State.freeReading
  refine boundsOk_advance (boundsOk_grantCaptures ((boundsOk_removeWaq (q := t.requester) (g := t.tag) h).congr
    le_rfl ?_ rfl rfl))
  exact List.length_filter_le _ _

theorem boundsOk_journalFault : (s.journalFault q rec l).BoundsOk := by
  unfold State.journalFault
  exact boundsOk_checkTarget (boundsOk_requestSeal (boundsOk_endRecord (boundsOk_report
    (h.congr le_rfl le_rfl rfl rfl))))

theorem boundsOk_recordWritten : (s.recordWritten p l a).BoundsOk := by
  unfold State.recordWritten
  split
  case h_1 => exact h
  case h_2 =>
    split
    case h_2 => exact h
    case h_1 =>
      split
      · exact boundsOk_writeLine h
      · exact boundsOk_endRecord h
      · split
        · exact boundsOk_writeLine h
        · exact boundsOk_journalFault h

theorem boundsOk_dropOldest : (s.dropOldest q).BoundsOk := by
  unfold State.dropOldest
  split
  · exact h.congr le_rfl le_rfl rfl rfl
  · exact h

omit h in
theorem boundsOk_relieveBy (q : BitVec 4) (n : Nat) :
    ∀ {s : State}, s.BoundsOk → (s.relieveBy q n).BoundsOk := by
  induction n with
  | zero => exact id
  | succ n ih =>
    intro s h
    unfold State.relieveBy
    split
    · exact ih (boundsOk_dropOldest h)
    · exact h

/-- A record's line enters the LTT only while its set has a way free (R67). -/
theorem boundsOk_place : (s.place t image).BoundsOk := by
  unfold State.place
  refine boundsOk_writeLine (boundsOk_makeReady ⟨h.waq_bound, ?_, h.mport, ?_⟩)
  · simpa using h.capture_bound
  · dsimp only
    split
    · exact h.ltt
    case isFalse hf => exact h.ltt.insert (Bool.eq_false_iff.mpr hf)

theorem boundsOk_allocate : (s.allocate t image).BoundsOk := by
  unfold State.allocate State.relieve
  have hq := boundsOk_relieveBy t.requester s.epoch.table.length h
  dsimp only
  split
  · split
    · exact boundsOk_place (boundsOk_requestSeal hq)
    · exact boundsOk_endCapture (boundsOk_requestSeal hq)
  · exact boundsOk_place hq

theorem boundsOk_captureRead : (s.captureRead q g a).BoundsOk := by
  unfold State.captureRead
  split
  case h_1 => exact h
  case h_2 =>
    split
    · exact boundsOk_endCapture h
    · split
      · exact boundsOk_checkTarget (boundsOk_allocate h)
      · exact boundsOk_endCapture h

theorem boundsOk_scanOn : (s.scanOn sc).BoundsOk := by
  unfold State.scanOn State.completeScan
  dsimp only
  split
  · exact boundsOk_freeSlot (h.congr le_rfl le_rfl rfl rfl)
  · exact boundsOk_joinRecordReads (h.congr le_rfl le_rfl rfl rfl)

theorem boundsOk_verifyRead : (s.verifyRead l a).BoundsOk := by
  have scanning (sc' : Scan) : State.BoundsOk { s with scan := some sc' } := h.congr le_rfl le_rfl rfl rfl
  unfold State.verifyRead
  split
  case h_1 => exact h
  case h_2 =>
    dsimp only
    split
    · exact boundsOk_join (scanning _)
    · split
      · unfold State.takeScanned
        dsimp only
        split
        · exact boundsOk_scanOn (scanning _)
        · split
          · exact boundsOk_scanOn (h.congr le_rfl le_rfl rfl rfl)
          · exact boundsOk_scanOn (scanning _)
      · exact scanning _

theorem boundsOk_inspectRead : (s.inspectRead l a).BoundsOk := by
  unfold State.inspectRead
  split
  case h_1 => exact h
  case h_2 =>
    dsimp only
    split
    · exact boundsOk_join (h.congr le_rfl le_rfl rfl rfl)
    · split
      · exact h.congr le_rfl le_rfl rfl rfl
      · exact h.congr le_rfl le_rfl rfl rfl

/-! ### The steps of the data path -/

theorem boundsOk_forwardEnds : (s.forwardEnds q g r a).BoundsOk := by
  unfold State.forwardEnds
  split
  · exact h.congr le_rfl le_rfl rfl rfl
  · split <;> exact h.congr le_rfl le_rfl rfl rfl

theorem boundsOk_ownerActs : (s.ownerActs r a).BoundsOk := by
  unfold State.ownerActs
  split
  · exact boundsOk_forwardEnds (boundsOk_removeWaq h)
  · exact boundsOk_forwardEnds h
  · exact boundsOk_captureRead h
  · exact boundsOk_recordWritten h
  · exact boundsOk_recordWritten h
  · exact boundsOk_restoreRead h
  · exact boundsOk_restoreRead h
  · exact boundsOk_restoreWritten h
  · exact boundsOk_verifyRead h
  · exact boundsOk_verifyRead h
  · exact boundsOk_inspectRead h
  · exact boundsOk_inspectRead h
  · exact h

/-- A transaction enters a WAQ that has a place free (R40, R56). -/
theorem boundsOk_routeTransaction (hroom : s.waq.length < 32) : (s.routeTransaction t).BoundsOk := by
  have enter : (s.enterWaq t).BoundsOk :=
    boundsOk_advance ⟨by simpa using hroom, h.capture_bound, h.mport, h.ltt⟩
  unfold State.routeTransaction
  split
  · exact enter
  · split
    · exact enter
    · exact boundsOk_join h

end

/-! ### The steps -/

/-- Outside FENCE the port takes a transaction only while the WAQ has a place free (R40). -/
theorem State.room_of_not_backPressure (hb : s.backPressure = false) (hg : s.gate.state ≠ .fence) :
    s.waq.length < 32 := by
  simp only [State.backPressure, Config.waqPlaces, Bool.or_eq_false_iff, Bool.and_eq_false_iff,
    bne_eq_false_iff_eq] at hb
  exact Nat.lt_of_not_le (of_decide_eq_false (hb.2.resolve_left hg))

/-- The port counts time and frees identifiers (R146). -/
theorem MPort.Sound.tick {m : MPort} (h : m.Sound) :
    MPort.Sound { m with
      outstanding := m.outstanding.map fun o => { o with timer := o.timer - 1 }
      withheld := m.withheld.map fun w => { w with timer := w.timer - 1 } } :=
  h.shrink (.refl _) (by rw [List.map_map]; exact .refl _) (by rw [List.map_map]; exact .refl _) le_rfl

theorem waitsAs_startGather : s.WaitsAs (s.startGather op src sources cmd) :=
  .of_map rfl (fun e => { e with beforeHold := true }) (fun _ => rfl) rfl

theorem waitsAs_stopScan : s.WaitsAs (s.stopScan res) := .of_eq (by simp) (by simp)

theorem waitsAs_requestSeal : s.WaitsAs (s.requestSeal src) := by
  unfold State.requestSeal
  split
  · split
    · exact waitsAs_startGather
    · split
      · exact .of_eq rfl rfl
      · exact .of_eq rfl rfl
      · exact .of_eq rfl rfl
      · exact waitsAs_stopScan.trans waitsAs_startGather
  · exact .of_eq rfl rfl

theorem waitsAs_freeSlot : s.WaitsAs s.freeSlot := by
  unfold State.freeSlot
  dsimp only
  split
  · split
    · exact .of_eq rfl rfl
    · exact .of_map rfl (fun e => { e with beforeHold := true }) (fun _ => rfl) rfl
  · exact .of_eq rfl rfl

/-- The fence removes entries, and marks others (R49). -/
theorem waitsAs_enterFence : s.WaitsAs s.enterFence := by
  by_cases hg : s.gate.state = .fence
  · rw [State.enterFence_of_fence hg]
    exact .of_eq rfl rfl
  · rw [State.enterFence_of_open hg, State.fenceRemovals_eq]
    refine ⟨rfl, fun e he hs => ?_⟩
    obtain ⟨e', he', rfl⟩ := List.mem_map.mp he
    refine ⟨e', List.mem_of_mem_filter he', ?_⟩
    split at hs
    · exact hs
    · exact hs

section

variable (h : s.ResourcesOk)

include h

theorem resourcesOk_requestSeal : (s.requestSeal src).ResourcesOk :=
  h.of_waitsAs (boundsOk_requestSeal h.bounds) waitsAs_requestSeal

theorem resourcesOk_freeSlot : s.freeSlot.ResourcesOk :=
  h.of_waitsAs (boundsOk_freeSlot h.bounds) waitsAs_freeSlot

theorem resourcesOk_stopScan : (s.stopScan res).ResourcesOk :=
  h.of_waitsAs (boundsOk_stopScan h.bounds) waitsAs_stopScan

theorem resourcesOk_startGather : (s.startGather op src sources cmd).ResourcesOk :=
  h.of_waitsAs (boundsOk_startGather h.bounds) waitsAs_startGather

theorem resourcesOk_enterFence : s.enterFence.ResourcesOk :=
  h.of_waitsAs (boundsOk_enterFence h.bounds) waitsAs_enterFence

theorem resourcesOk_preemptGather : (s.preemptGather sl).ResourcesOk :=
  h.congr (by simp) (by simp) (by simp) (by simp)

theorem resourcesOk_examineRelease : s.examineRelease.ResourcesOk :=
  h.congr (by simp) (by simp) (by simp) (by simp)

theorem resourcesOk_complete : (s.complete res why d).ResourcesOk := h.congr rfl rfl rfl rfl

theorem resourcesOk_refuse : (s.refuse t).ResourcesOk := h.congr rfl rfl rfl rfl

theorem resourcesOk_acceptTransaction : (s.acceptTransaction t).ResourcesOk := by
  unfold State.acceptTransaction
  split
  · exact h
  case isFalse hb =>
    have hb : s.backPressure = false := Bool.eq_false_iff.mpr hb
    split
    · exact resourcesOk_refuse h
    · split
      case h_1 => exact resourcesOk_refuse h
      case h_2 => exact h
      case h_3 hg =>
        exact resourcesOk_closeStep (boundsOk_routeTransaction h.bounds
          (State.room_of_not_backPressure hb (by rw [hg]; decide)))
      case h_4 hg =>
        exact resourcesOk_closeStep (boundsOk_routeTransaction h.bounds
          (State.room_of_not_backPressure hb (by rw [hg]; decide)))

theorem resourcesOk_grant : (s.grant i tie).ResourcesOk := by
  unfold State.grant
  split
  case isFalse => exact h
  case isTrue hfree =>
    obtain ⟨hslot, hident⟩ := Bool.and_eq_true_iff.mp hfree
    split
    case h_1 => exact h
    case h_2 r _ =>
      have sent : (s.send i r).BoundsOk :=
        ⟨h.waq_bound, h.capture_bound, h.bounds.mport.send hslot hident, h.bounds.ltt⟩
      apply resourcesOk_closeStep
      unfold State.issue
      split
      · exact boundsOk_advance (boundsOk_setWaqState sent)
      · exact sent

theorem resourcesOk_freeIdent : (s.freeIdent i).ResourcesOk :=
  h.of_waitsAs ⟨h.waq_bound, h.capture_bound,
    h.bounds.mport.shrink (.refl _) (.refl _) (List.filter_sublist.map _) le_rfl, h.bounds.ltt⟩ (.of_eq rfl rfl)

theorem resourcesOk_portAnswer : (s.portAnswer i a).ResourcesOk := by
  unfold State.portAnswer
  split
  · exact resourcesOk_closeStep (boundsOk_ownerActs ⟨h.waq_bound, h.capture_bound,
      h.bounds.mport.freeRequest i, h.bounds.ltt⟩)
  · exact resourcesOk_freeIdent h

omit h in
/-- An identifier with a request is one of the outstanding ones. -/
theorem MPort.ident_mem_of_outstandingOf {m : MPort} (hr : m.outstandingOf i = some r) :
    i ∈ m.outstanding.map (·.ident) := by
  obtain ⟨x, hx, -⟩ := Option.map_eq_some_iff.mp hr
  have hi : x.ident = i := by simpa using List.find?_some hx
  exact List.mem_map.mpr ⟨x, List.mem_of_find?_eq_some hx, hi⟩

theorem resourcesOk_timeOut : (s.timeOut i).ResourcesOk := by
  unfold State.timeOut
  split
  case h_1 r hr =>
    exact resourcesOk_closeStep (boundsOk_ownerActs ⟨h.waq_bound, h.capture_bound,
      h.bounds.mport.withhold (MPort.ident_mem_of_outstandingOf hr), h.bounds.ltt⟩)
  case h_2 => exact h

theorem resourcesOk_epochTimerExpiry : s.epochTimerExpiry.ResourcesOk := by
  unfold State.epochTimerExpiry
  split
  case h_2 => exact h
  case h_3 => exact h
  case h_1 =>
    unfold State.timerExpires
    split
    · exact h.congr rfl rfl rfl rfl
    · split
      · exact h.congr rfl rfl rfl rfl
      · exact resourcesOk_requestSeal (h.congr rfl rfl rfl rfl)

theorem resourcesOk_gatherEnds : s.gatherEnds.ResourcesOk := by
  unfold State.gatherEnds
  split
  · exact h
  · split
    · split
      · apply resourcesOk_closeStep
        split
        · exact boundsOk_commit h.bounds
        · exact boundsOk_limitEnd h.bounds
      · exact h
    · split
      · exact resourcesOk_closeStep (boundsOk_discard h.bounds)
      · exact h
    · exact h
    · exact h

theorem resourcesOk_drainEnds : s.drainEnds.ResourcesOk := by
  unfold State.drainEnds
  split
  · split
    · apply resourcesOk_closeStep
      split
      · exact boundsOk_settle h.bounds
      · exact boundsOk_beginRecord (h.bounds.congr le_rfl le_rfl rfl rfl)
    · exact h
  · exact h

theorem resourcesOk_displace : s.displace.ResourcesOk := by
  unfold State.displace
  split
  · exact h
  · split
    · exact resourcesOk_preemptGather h
    · exact resourcesOk_preemptGather h
    · exact resourcesOk_stopScan h
    · exact h.congr (by simp) (by simp) (by simp) (by simp)

theorem resourcesOk_startFenceTimer : s.startFenceTimer.ResourcesOk := h.congr rfl rfl rfl rfl

theorem resourcesOk_fenceNoCheckpoint : s.fenceNoCheckpoint.ResourcesOk := by
  unfold State.fenceNoCheckpoint
  exact resourcesOk_startFenceTimer ((resourcesOk_enterFence h).congr rfl rfl rfl rfl)

theorem resourcesOk_startFaultRollback : (s.startFaultRollback c).ResourcesOk := by
  have drain : (s.enterDrain .fault .fault c false false).ResourcesOk := h.congr rfl rfl rfl rfl
  exact (resourcesOk_enterFence drain).congr rfl rfl rfl rfl

theorem resourcesOk_faultJournaling : s.faultJournaling.ResourcesOk := by
  unfold State.faultJournaling State.reportFault
  dsimp only
  split
  · exact resourcesOk_enterFence (h.congr rfl rfl rfl rfl)
  · split
    · exact resourcesOk_fenceNoCheckpoint (h.congr rfl rfl rfl rfl)
    · exact resourcesOk_startFaultRollback (resourcesOk_displace (h.congr rfl rfl rfl rfl))

theorem resourcesOk_faultRises : s.faultRises.ResourcesOk := by
  unfold State.faultRises State.dispatchFault State.reportFault
  dsimp only
  split
  · exact h
  · split
    · split
      · exact resourcesOk_startFenceTimer (resourcesOk_enterFence (h.congr rfl rfl rfl rfl))
      · exact resourcesOk_faultJournaling (h.congr rfl rfl rfl rfl)
      · exact h.congr rfl rfl rfl rfl
    · exact h.congr rfl rfl rfl rfl

theorem resourcesOk_faultFalls : s.faultFalls.ResourcesOk := by
  unfold State.faultFalls
  split
  · exact resourcesOk_examineRelease (h.congr rfl rfl rfl rfl)
  · exact h

theorem resourcesOk_fenceTimerExpires : s.fenceTimerExpires.ResourcesOk := by
  unfold State.fenceTimerExpires
  split
  · exact h
  · exact resourcesOk_examineRelease (h.congr (by simp) (by simp) (by simp) (by simp))

theorem resourcesOk_honourAbort : s.honourAbort.ResourcesOk := by
  unfold State.honourAbort
  split
  · exact h
  · split <;> split
    · exact resourcesOk_closeStep (boundsOk_abortGather h.bounds)
    · exact h
    · exact resourcesOk_closeStep (boundsOk_abortGather h.bounds)
    · exact h
    · exact resourcesOk_closeStep (boundsOk_abortDrain h.bounds)
    · exact h
    · exact resourcesOk_freeSlot (resourcesOk_stopScan h)
    · exact h

theorem resourcesOk_abortWritten : s.abortWritten.ResourcesOk := by
  unfold State.abortWritten
  split
  · exact h
  · split
    · exact h
    · exact resourcesOk_honourAbort (h.congr rfl rfl rfl rfl)

theorem resourcesOk_writeTimerCtl : (s.writeTimerCtl bytes).ResourcesOk := by
  unfold State.writeTimerCtl
  dsimp only
  split
  · exact resourcesOk_requestSeal (h.congr rfl rfl rfl rfl)
  · exact h.congr rfl rfl rfl rfl

/-! ### The mailbox's commands -/

theorem resourcesOk_taken : (s.taken code).ResourcesOk := h.congr rfl rfl rfl rfl

theorem resourcesOk_reject : (s.reject why).ResourcesOk := resourcesOk_complete h

theorem resourcesOk_busy : s.busy.ResourcesOk := resourcesOk_complete h

theorem resourcesOk_setJournal : s.setJournal.ResourcesOk := by
  unfold State.setJournal
  split
  · dsimp only
    split
    · exact resourcesOk_reject h
    · exact h.congr rfl rfl rfl rfl
  · exact resourcesOk_reject h

theorem resourcesOk_setRegion : s.setRegion.ResourcesOk := by
  unfold State.setRegion
  dsimp only
  split
  · exact resourcesOk_complete h
  · rw [State.copyIfIdle_eq]
    exact h.congr rfl rfl rfl rfl

theorem resourcesOk_setPolicy : s.setPolicy.ResourcesOk := by
  unfold State.setPolicy
  dsimp only
  split
  · exact resourcesOk_complete h
  · rw [State.copyIfIdle_eq]
    exact h.congr rfl rfl rfl rfl

theorem resourcesOk_startJournaling : s.startJournaling.ResourcesOk := by
  unfold State.startJournaling
  split
  · exact resourcesOk_reject h
  · exact resourcesOk_reject h
  · split
    · refine resourcesOk_closeStep (boundsOk_complete (boundsOk_epochOpen (h.bounds.congr ?_ ?_ ?_ ?_))) <;> rfl
    · exact resourcesOk_reject h

theorem resourcesOk_stopJournaling : s.stopJournaling.ResourcesOk := by
  unfold State.stopJournaling
  split
  · exact resourcesOk_complete h
  · exact resourcesOk_reject h
  · split
    · exact resourcesOk_startGather h
    · exact resourcesOk_busy h

theorem resourcesOk_sealEpoch : s.sealEpoch.ResourcesOk := by
  unfold State.sealEpoch
  split
  · exact resourcesOk_reject h
  · exact resourcesOk_reject h
  · split
    · exact resourcesOk_startGather h
    · split
      case h_1 => exact h.congr rfl rfl rfl rfl
      all_goals exact resourcesOk_busy h

theorem resourcesOk_startCommandRollback : (s.startCommandRollback c).ResourcesOk := by
  unfold State.startCommandRollback
  dsimp only
  split
  · exact h.congr rfl rfl rfl rfl
  · exact h.congr rfl rfl rfl rfl

theorem resourcesOk_rollbackTo : s.rollbackTo.ResourcesOk := by
  unfold State.rollbackTo
  split
  · exact resourcesOk_reject h
  · exact resourcesOk_reject h
  · split
    · split
      · exact resourcesOk_reject h
      · split
        · exact resourcesOk_reject h
        · exact resourcesOk_reject h
        · unfold State.requestRollback
          split
          · exact resourcesOk_startCommandRollback h
          · split
            · exact resourcesOk_startCommandRollback (resourcesOk_preemptGather h)
            all_goals exact resourcesOk_busy h
    · exact resourcesOk_reject h

theorem resourcesOk_verifyJournal : s.verifyJournal.ResourcesOk := by
  unfold State.verifyJournal
  split
  · exact resourcesOk_reject h
  · exact resourcesOk_reject h
  · split
    · exact resourcesOk_closeStep (boundsOk_scanOn (h.bounds.congr le_rfl le_rfl rfl rfl))
    · exact resourcesOk_busy h

theorem resourcesOk_releaseFence : s.releaseFence.ResourcesOk := by
  unfold State.releaseFence
  split
  · exact resourcesOk_reject h
  · dsimp only
    split
    · exact resourcesOk_complete (h.congr (by simp) (by simp) (by simp) (by simp))
    · exact resourcesOk_complete h

theorem resourcesOk_recoverPart : s.recoverPart.ResourcesOk := by
  unfold State.recoverPart
  split
  · exact resourcesOk_reject h
  · exact resourcesOk_reject h
  · refine resourcesOk_complete (resourcesOk_examineRelease (h.of_waitsAs ?_ (.of_eq rfl rfl)))
    exact ⟨h.waq_bound, h.capture_bound, h.bounds.mport, .nil⟩

theorem resourcesOk_readRecordAt : s.readRecordAt.ResourcesOk := by
  unfold State.readRecordAt
  split
  · exact resourcesOk_reject h
  · dsimp only
    split
    · exact resourcesOk_closeStep (boundsOk_joinRecordReads (h.bounds.congr le_rfl le_rfl rfl rfl))
    · exact resourcesOk_reject h

theorem resourcesOk_tick (pending : List Instr) :
    State.ResourcesOk { s.countTick with pending := pending } :=
  h.of_waitsAs ⟨h.waq_bound, h.capture_bound, h.bounds.mport.tick, h.bounds.ltt⟩ (.of_eq rfl rfl)

end

end Operations

/-- What each command does to the bounded resources. -/
theorem resourcesOk_stepKeeps : StepKeeps State.ResourcesOk State.ResourcesOk where
  keep h := h
  pending _ h := h.congr rfl rfl rfl rfl
  select _ _ h := h.congr rfl rfl rfl rfl
  tick p h := resourcesOk_tick h p
  reset _ _ _ _ := State.reset_resourcesOk.congr rfl rfl rfl rfl
  phase _ h := h.congr rfl rfl rfl rfl
  endReset _ _ _ _ h := h.congr rfl rfl rfl rfl
  acceptTransaction _ h := resourcesOk_acceptTransaction h
  grant _ _ h := resourcesOk_grant h
  portAnswer _ _ h := resourcesOk_portAnswer h
  timeOut _ h := resourcesOk_timeOut h
  freeIdent _ h := resourcesOk_freeIdent h
  epochTimerExpiry h := resourcesOk_epochTimerExpiry h
  gatherEnds h := resourcesOk_gatherEnds h
  drainEnds h := resourcesOk_drainEnds h
  faultRises h := resourcesOk_faultRises h
  faultFalls h := resourcesOk_faultFalls h
  fenceTimerExpires h := resourcesOk_fenceTimerExpires h
  refuseCommand _ h := h.congr rfl rfl rfl rfl
  setJournal h _ _ := resourcesOk_setJournal (resourcesOk_taken h)
  setRegion h _ _ := resourcesOk_setRegion (resourcesOk_taken h)
  setPolicy h _ _ := resourcesOk_setPolicy (resourcesOk_taken h)
  startJournaling h _ _ := resourcesOk_startJournaling (resourcesOk_taken h)
  stopJournaling h _ _ := resourcesOk_stopJournaling (resourcesOk_taken h)
  sealEpoch h _ _ := resourcesOk_sealEpoch (resourcesOk_taken h)
  rollbackTo h _ _ := resourcesOk_rollbackTo (resourcesOk_taken h)
  verifyJournal h _ _ := resourcesOk_verifyJournal (resourcesOk_taken h)
  releaseFence h _ _ := resourcesOk_releaseFence (resourcesOk_taken h)
  recoverPart h _ _ := resourcesOk_recoverPart (resourcesOk_taken h)
  readTable h _ _ := resourcesOk_complete (resourcesOk_taken h)
  readRecordAt h _ _ := resourcesOk_readRecordAt (resourcesOk_taken h)
  rejectCode h _ _ := resourcesOk_reject (resourcesOk_taken h)
  abortWritten h := resourcesOk_abortWritten h
  writeTimerCtl _ h := resourcesOk_writeTimerCtl h
  writeEventAck _ h := h.congr rfl rfl rfl rfl
  writeAlertMask _ h := h.congr rfl rfl rfl rfl
  writeParam _ h := h.congr rfl rfl rfl rfl

/-- Settles O56: the bounds are kept by every operation, and `StepKeeps` runs through the commands. -/
theorem everyStepKeepsTheResources : Obligations.EveryStepKeepsTheResources :=
  fun _ _ h ht => resourcesOk_stepKeeps.step h ht

end Sys2Proof.Machine
end

section
/-! PROOFS. The heads of the line chains: what `nextHead` finds, what keeps every head decided, and that
`State.advance` decides them all (R58). -/

namespace Sys2Proof.Machine

set_option Elab.async false

/-! ### The next head -/

theorem nextHead_spec (waq : List WaqEntry) : ∀ {blocked : List LineIndex} {e : WaqEntry},
    nextHead blocked waq = some e → e ∈ waq ∧ e.state = .waiting ∧ e.line ∉ blocked := by
  induction waq with
  | nil => exact nofun
  | cons x xs ih =>
    intro blocked e h
    unfold nextHead at h
    split at h
    case isTrue hx =>
      cases h
      exact ⟨List.mem_cons_self .., hx.1, by simpa using hx.2⟩
    case isFalse =>
      obtain ⟨he, hs, hb⟩ := ih h
      refine ⟨List.mem_cons_of_mem _ he, hs, fun hm => hb ?_⟩
      split
      · exact hm
      · exact List.mem_cons_of_mem _ hm

theorem nextHead_eq_none_of_no_waiting {waq : List WaqEntry} (h : ∀ e ∈ waq, e.state ≠ .waiting)
    (blocked : List LineIndex) : nextHead blocked waq = none := by
  cases hn : nextHead blocked waq with
  | none => rfl
  | some e =>
    obtain ⟨he, hs, -⟩ := nextHead_spec waq hn
    exact absurd hs (h e he)

/-- Whether every head is decided depends on lines, on who waits, and on who has been issued. -/
theorem nextHead_map {f : WaqEntry → WaqEntry} {waq : List WaqEntry} (hl : ∀ e ∈ waq, (f e).line = e.line)
    (hw : ∀ e ∈ waq, (f e).state = .waiting ↔ e.state = .waiting)
    (hi : ∀ e ∈ waq, (f e).state = .issued ↔ e.state = .issued) :
    ∀ blocked, nextHead blocked (waq.map f) = none ↔ nextHead blocked waq = none := by
  induction waq with
  | nil => exact fun _ => Iff.rfl
  | cons x xs ih =>
    intro blocked
    rw [List.forall_mem_cons] at hl hw hi
    have hif : (if (f x).state = .issued then blocked else x.line :: blocked) =
        if x.state = .issued then blocked else x.line :: blocked := if_congr hi.1 rfl rfl
    simp only [List.map_cons, nextHead, hl.1, hif, hw.1]
    split
    · simp
    · exact ih hl.2 hw.2 hi.2 _

/-- Issued entries block nothing: they may leave (R58). -/
theorem nextHead_filter {p : WaqEntry → Bool} {waq : List WaqEntry}
    (h : ∀ e ∈ waq, p e = false → e.state = .issued) :
    ∀ blocked, nextHead blocked (waq.filter p) = none ↔ nextHead blocked waq = none := by
  induction waq with
  | nil => exact fun _ => Iff.rfl
  | cons x xs ih =>
    intro blocked
    rw [List.forall_mem_cons] at h
    cases hp : p x
    case false =>
      have hs := h.1 hp
      rw [List.filter_cons_of_neg (by simp [hp]), ih h.2]
      simp [nextHead, hs]
    case true =>
      rw [List.filter_cons_of_pos hp]
      simp only [nextHead]
      split
      · simp
      · exact ih h.2 _

/-- Every head is decided exactly when each WAITING entry stands behind an entry of its line not yet issued. -/
theorem nextHead_eq_none_iff (waq : List WaqEntry) : ∀ blocked : List LineIndex,
    nextHead blocked waq = none ↔
      ∀ l e r, waq = l ++ e :: r → e.state = .waiting →
        e.line ∈ blocked ∨ ∃ x ∈ l, x.line = e.line ∧ x.state ≠ .issued := by
  induction waq with
  | nil => simp [nextHead]
  | cons x xs ih =>
    intro blocked
    unfold nextHead
    split
    case isTrue hx =>
      refine ⟨nofun, fun h => ?_⟩
      rcases h [] x xs rfl hx.1 with hb | ⟨_, hm, -⟩
      · simp [hb] at hx
      · exact nomatch hm
    case isFalse hx =>
      have hx : x.state = .waiting → x.line ∈ blocked := by simpa using hx
      rw [ih]
      constructor
      · intro h l e r heq hs
        cases l with
        | nil =>
          cases heq
          exact .inl (hx hs)
        | cons y l =>
          cases heq
          rcases h l e r rfl hs with hb | ⟨z, hz, hzl, hzs⟩
          · split at hb
            · exact .inl hb
            case isFalse hi =>
              rcases List.mem_cons.mp hb with hb | hb
              · exact .inr ⟨x, List.mem_cons_self .., hb.symm, hi⟩
              · exact .inl hb
          · exact .inr ⟨z, List.mem_cons_of_mem _ hz, hzl, hzs⟩
      · intro h l e r heq hs
        rcases h (x :: l) e r (by rw [heq]; rfl) hs with hb | ⟨z, hz, hzl, hzs⟩
        · left
          split
          · exact hb
          · exact List.mem_cons_of_mem _ hb
        · rcases List.mem_cons.mp hz with rfl | hz
          · exact .inl (by rw [if_neg hzs, hzl]; exact List.mem_cons_self ..)
          · exact .inr ⟨z, hz, hzl, hzs⟩

/-! ### Every head is decided -/

/-- A count falls when an element stops being counted and none starts. -/
theorem countP_lt_of_mem {α : Type} {p q : α → Bool} {l : List α} (h : ∀ x ∈ l, q x = true → p x = true)
    {a : α} (ha : a ∈ l) (hp : p a = true) (hq : q a = false) : l.countP q < l.countP p := by
  obtain ⟨l₁, l₂, rfl⟩ := List.append_of_mem ha
  have h1 : l₁.countP q ≤ l₁.countP p := List.countP_mono_left fun x hx => h x (by simp [hx])
  have h2 : l₂.countP q ≤ l₂.countP p := List.countP_mono_left fun x hx => h x (by simp [hx])
  simp only [List.countP_append, List.countP_cons, hp, hq, if_true, Bool.false_eq_true, if_false]
  omega

/-- The WAQ after the decision of a head: its write has left, or the entry is READY or waits for a capture. -/
theorem State.settleHead_waq (s : State) (e : WaqEntry) :
    (s.settleHead e).waq = s.waq.filter (fun x => !x.keyIs e.txn.requester e.txn.tag) ∨
      ∃ st, (st = .ready ∨ st = .captureWait) ∧ (s.settleHead e).waq =
        s.waq.map fun x => if x.keyIs e.txn.requester e.txn.tag then { x with state := st } else x := by
  rcases s.settleHead_cases e with ⟨-, -, he⟩ | ⟨-, he⟩ | ⟨-, -, -, -, he⟩ <;> rw [he]
  · exact .inl rfl
  · refine .inr ⟨.ready, .inl rfl, ?_⟩
    obtain ⟨_, _, h⟩ := (s.setWaqState e.txn.requester e.txn.tag .ready).joinForward_frame e.txn
    rw [State.makeReady, h]
    rfl
  · exact .inr ⟨.captureWait, .inr rfl, rfl⟩

theorem WaqEntry.keyIs_self (e : WaqEntry) : e.keyIs e.txn.requester e.txn.tag = true := by
  simp [WaqEntry.keyIs]

/-- The WAITING entries of the WAQ. -/
def waitingCount (waq : List WaqEntry) : Nat := waq.countP fun e => e.state == .waiting

/-- Each decision leaves fewer entries WAITING. -/
theorem State.settleHead_waitingCount {s : State} {e : WaqEntry} (he : e ∈ s.waq) (hs : e.state = .waiting) :
    waitingCount (s.settleHead e).waq < waitingCount s.waq := by
  unfold waitingCount
  rcases s.settleHead_waq e with h | ⟨st, hst, h⟩ <;> rw [h]
  · rw [List.countP_filter]
    exact countP_lt_of_mem (fun x _ hx => (Bool.and_eq_true_iff.mp hx).1) he (by simp [hs])
      (by simp [e.keyIs_self])
  · rw [List.countP_map]
    have hne : st ≠ .waiting := by rcases hst with rfl | rfl <;> decide
    refine countP_lt_of_mem (fun x _ hx => ?_) he (by simp [hs]) ?_
    · simp only [Function.comp_apply] at hx
      split at hx
      · exact absurd (beq_iff_eq.mp hx) hne
      · exact hx
    · simp [e.keyIs_self, hne]

theorem State.advanceBy_headsDecided (n : Nat) : ∀ {s : State}, waitingCount s.waq ≤ n →
    (s.advanceBy n).headsDecided := by
  induction n with
  | zero =>
    intro s h
    refine nextHead_eq_none_of_no_waiting (fun e he hs => ?_) []
    have := List.countP_eq_zero.mp (Nat.le_zero.mp h) e he
    simp [hs] at this
  | succ n ih =>
    intro s h
    unfold State.advanceBy
    split
    case h_1 hnone => exact hnone
    case h_2 e hsome =>
      obtain ⟨he, hs, -⟩ := nextHead_spec _ hsome
      have := State.settleHead_waitingCount he hs
      exact ih (by omega)

/-- Every head is decided by `advance` (R58). -/
theorem State.advance_headsDecided (s : State) : s.advance.headsDecided :=
  State.advanceBy_headsDecided _ List.countP_le_length

end Sys2Proof.Machine
end

section
/-! PROOFS. The requests of the WAQ entries: what each operation does to the keys of the entries in a state
and to the requests that name them. O59. -/

namespace Sys2Proof.Machine

set_option Elab.async false

/-! ### The keys of the entries in a state -/

theorem WaqEntry.keyIs_iff (e : WaqEntry) (q : BitVec 4) (g : BitVec 6) :
    e.keyIs q g = true ↔ e.key = (q, g) := by
  simp [WaqEntry.keyIs, WaqEntry.key]

theorem mem_keysIn {waq : List WaqEntry} {st : WaqState} {k : BitVec 4 × BitVec 6} :
    k ∈ keysIn waq st ↔ ∃ e ∈ waq, e.state = st ∧ e.key = k := by
  simp [keysIn, and_assoc]

@[simp] theorem keysIn_nil (st : WaqState) : keysIn [] st = [] := rfl

theorem keysIn_cons (e : WaqEntry) (waq : List WaqEntry) (st : WaqState) :
    keysIn (e :: waq) st = if e.state = st then e.key :: keysIn waq st else keysIn waq st := by
  by_cases h : e.state = st <;> simp [keysIn, h]

theorem keysIn_append (l r : List WaqEntry) (st : WaqState) :
    keysIn (l ++ r) st = keysIn l st ++ keysIn r st := by
  simp [keysIn]

theorem nodup_keysIn {waq : List WaqEntry} (h : (waq.map WaqEntry.key).Nodup) (st : WaqState) :
    (keysIn waq st).Nodup := h.sublist (List.filter_sublist.map _)

/-- Changes that keep the keys, and who is in the state, keep the keys in the state. -/
theorem keysIn_map {f : WaqEntry → WaqEntry} {st : WaqState} {waq : List WaqEntry}
    (hk : ∀ e ∈ waq, (f e).key = e.key) (hs : ∀ e ∈ waq, (f e).state = st ↔ e.state = st) :
    keysIn (waq.map f) st = keysIn waq st := by
  induction waq with
  | nil => rfl
  | cons x xs ih =>
    rw [List.forall_mem_cons] at hk hs
    rw [List.map_cons, keysIn_cons, keysIn_cons, ih hk.2 hs.2, hk.1]
    exact if_congr hs.1 rfl rfl

/-- Entries that leave from other states change nothing. -/
theorem keysIn_filter {p : WaqEntry → Bool} {st : WaqState} {waq : List WaqEntry}
    (h : ∀ e ∈ waq, e.state = st → p e = true) : keysIn (waq.filter p) st = keysIn waq st := by
  unfold keysIn
  rw [List.filter_filter]
  congr 1
  refine List.filter_congr fun e he => ?_
  by_cases hs : e.state = st
  · simp [hs, h e he hs]
  · simp [hs]

/-- The state of the entries with a key set. -/
def setState (waq : List WaqEntry) (q : BitVec 4) (g : BitVec 6) (st : WaqState) : List WaqEntry :=
  waq.map fun e => if e.keyIs q g then { e with state := st } else e

/-- The entries without a key. -/
def without (waq : List WaqEntry) (q : BitVec 4) (g : BitVec 6) : List WaqEntry :=
  waq.filter fun e => !e.keyIs q g

theorem State.setWaqState_eq (s : State) (q : BitVec 4) (g : BitVec 6) (st : WaqState) :
    (s.setWaqState q g st).waq = setState s.waq q g st := rfl

theorem State.removeWaq_eq (s : State) (q : BitVec 4) (g : BitVec 6) :
    (s.removeWaq q g).waq = without s.waq q g := rfl

@[simp] theorem keys_setState (waq : List WaqEntry) (q : BitVec 4) (g : BitVec 6) (st : WaqState) :
    (setState waq q g st).map WaqEntry.key = waq.map WaqEntry.key := by
  unfold setState
  rw [List.map_map]
  refine List.map_congr_left fun e _ => ?_
  simp only [Function.comp_apply]
  split <;> rfl

theorem keys_without_nodup {waq : List WaqEntry} (h : (waq.map WaqEntry.key).Nodup) (q : BitVec 4)
    (g : BitVec 6) : ((without waq q g).map WaqEntry.key).Nodup := h.sublist (List.filter_sublist.map _)

section OneEntry

variable {waq : List WaqEntry} {e : WaqEntry} {st st' : WaqState} {q : BitVec 4} {g : BitVec 6}

/-- The WAQ around the one entry with its key. -/
theorem split_of_mem (hn : (waq.map WaqEntry.key).Nodup) (he : e ∈ waq) :
    ∃ l r, waq = l ++ e :: r ∧ ∀ x, x ∈ l ∨ x ∈ r → x.key ≠ e.key := by
  obtain ⟨l, r, rfl⟩ := List.append_of_mem he
  refine ⟨l, r, rfl, fun x hx hk => ?_⟩
  rw [List.map_append, List.map_cons, List.nodup_middle, List.nodup_cons] at hn
  refine hn.1 (hk ▸ ?_)
  rw [← List.map_append]
  exact List.mem_map_of_mem (List.mem_append.mpr hx)

theorem eq_of_key (hn : (waq.map WaqEntry.key).Nodup) {x : WaqEntry} (he : e ∈ waq) (hx : x ∈ waq)
    (hk : x.key = e.key) : x = e := List.inj_on_of_nodup_map hn hx he hk

theorem setState_split {l r : List WaqEntry} (h : ∀ x, x ∈ l ∨ x ∈ r → x.key ≠ e.key)
    (hk : e.key = (q, g)) : setState (l ++ e :: r) q g st = l ++ { e with state := st } :: r := by
  have same : ∀ m : List WaqEntry, (∀ x ∈ m, x.key ≠ e.key) → setState m q g st = m := by
    intro m hm
    refine (List.map_congr_left fun x hx => if_neg ?_).trans (List.map_id _)
    rw [x.keyIs_iff, ← hk]
    exact hm x hx
  have hself : e.keyIs q g = true := (e.keyIs_iff q g).mpr hk
  have hl := same l fun x hx => h x (.inl hx)
  have hr := same r fun x hx => h x (.inr hx)
  unfold setState at hl hr ⊢
  rw [List.map_append, List.map_cons, hl, hr, if_pos hself]

theorem without_split {l r : List WaqEntry} (h : ∀ x, x ∈ l ∨ x ∈ r → x.key ≠ e.key)
    (hk : e.key = (q, g)) : without (l ++ e :: r) q g = l ++ r := by
  have same : ∀ m : List WaqEntry, (∀ x ∈ m, x.key ≠ e.key) → without m q g = m := by
    intro m hm
    refine List.filter_eq_self.mpr fun x hx => ?_
    rw [Bool.not_eq_true', Bool.eq_false_iff, Ne, x.keyIs_iff, ← hk]
    exact hm x hx
  have hself : e.keyIs q g = true := (e.keyIs_iff q g).mpr hk
  have hl := same l fun x hx => h x (.inl hx)
  have hr := same r fun x hx => h x (.inr hx)
  unfold without at hl hr ⊢
  rw [List.filter_append, List.filter_cons_of_neg (by simp [hself]), hl, hr]

variable (hn : (waq.map WaqEntry.key).Nodup) (he : e ∈ waq) (hk : e.key = (q, g))

include hn he hk

/-- The entry joins those in its new state. -/
theorem keysIn_setState_new (hs : e.state ≠ st) :
    (keysIn (setState waq q g st) st).Perm ((q, g) :: keysIn waq st) := by
  obtain ⟨l, r, rfl, h⟩ := split_of_mem hn he
  have hke : ({ e with state := st } : WaqEntry).key = (q, g) := hk
  rw [setState_split h hk, keysIn_append, keysIn_append, keysIn_cons, keysIn_cons, if_pos rfl, if_neg hs, hke]
  exact List.perm_middle

/-- It leaves those in its old state. -/
theorem keysIn_setState_old (hs : e.state ≠ st) :
    (keysIn waq e.state).Perm ((q, g) :: keysIn (setState waq q g st) e.state) := by
  obtain ⟨l, r, rfl, h⟩ := split_of_mem hn he
  rw [setState_split h hk, keysIn_append, keysIn_append, keysIn_cons, keysIn_cons, if_pos rfl,
    if_neg (show ¬st = e.state from fun h => hs h.symm), hk]
  exact List.perm_middle

theorem keysIn_setState_other (hs : st' ≠ e.state) (hs' : st' ≠ st) :
    keysIn (setState waq q g st) st' = keysIn waq st' := by
  obtain ⟨l, r, rfl, h⟩ := split_of_mem hn he
  rw [setState_split h hk, keysIn_append, keysIn_append, keysIn_cons, keysIn_cons, if_neg hs.symm,
    if_neg (show ¬st = st' from hs'.symm)]

/-- An entry that leaves the WAQ leaves those in its state. -/
theorem keysIn_without_old : (keysIn waq e.state).Perm ((q, g) :: keysIn (without waq q g) e.state) := by
  obtain ⟨l, r, rfl, h⟩ := split_of_mem hn he
  rw [without_split h hk, keysIn_append, keysIn_append, keysIn_cons, if_pos rfl, hk]
  exact List.perm_middle

theorem keysIn_without_other (hs : st ≠ e.state) : keysIn (without waq q g) st = keysIn waq st := by
  obtain ⟨l, r, rfl, h⟩ := split_of_mem hn he
  rw [without_split h hk, keysIn_append, keysIn_append, keysIn_cons, if_neg hs.symm]

end OneEntry

end Sys2Proof.Machine
end

section
/-! PROOFS. One request for each entry that needs one: each operation keeps the ties of `State.RequestsOk`.
O59. -/

namespace Sys2Proof.Machine

set_option Elab.async false

/-! ### The ties, with owners whose requests have just ended -/

/-- The ties of `State.RequestsOk` without the heads. `ended` lists owners whose requests have ended, and which
have not yet acted on it. -/
structure State.Tracks (ended : List Owner) (s : State) : Prop where
  keys_once : (s.waq.map WaqEntry.key).Nodup
  ready : List.Perm (s.mport.waitingOwners.filterMap Owner.waqKey?) (keysIn s.waq .ready)
  issued : List.Perm ((ended ++ s.mport.outstandingOwners).filterMap Owner.waqKey?) (keysIn s.waq .issued)
  capturing : List.Perm
    ((ended ++ (s.mport.waitingOwners ++ s.mport.outstandingOwners)).filterMap Owner.captureKey?)
    (keysIn s.waq .capturing)
  writes : ∀ e ∈ s.waq,
    e.state = .parked ∨ e.state = .captureWait ∨ e.state = .capturing → e.txn.kind = .write

/-- The ties of `State.RequestsOk` with such owners. -/
def State.Linked (ended : List Owner) (s : State) : Prop := s.Tracks ended ∧ s.headsDecided

theorem State.requestsOk_iff {s : State} : s.RequestsOk ↔ s.Linked [] :=
  ⟨fun ⟨h1, h2, h3, h4, h5, h6⟩ => ⟨⟨h1, h2, h3, h4, h6⟩, h5⟩,
    fun ⟨⟨h1, h2, h3, h4, h6⟩, h5⟩ => ⟨h1, h2, h3, h4, h5, h6⟩⟩

@[simp] theorem Owner.keys_waq (q : BitVec 4) (g : BitVec 6) :
    (Owner.waq q g).waqKey? = some (q, g) ∧ (Owner.waq q g).captureKey? = none := ⟨rfl, rfl⟩

@[simp] theorem Owner.keys_capture (q : BitVec 4) (g : BitVec 6) :
    (Owner.capture q g).waqKey? = none ∧ (Owner.capture q g).captureKey? = some (q, g) := ⟨rfl, rfl⟩

/-- The owner names no WAQ entry. -/
def Owner.keyless (o : Owner) : Prop := o.waqKey? = none ∧ o.captureKey? = none

/-- The requests of two ports name the same entries. -/
structure MPort.SameKeys (m m' : MPort) : Prop where
  ready : m'.waitingOwners.filterMap Owner.waqKey? = m.waitingOwners.filterMap Owner.waqKey?
  asked : m'.waitingOwners.filterMap Owner.captureKey? = m.waitingOwners.filterMap Owner.captureKey?
  issued : m'.outstandingOwners.filterMap Owner.waqKey? = m.outstandingOwners.filterMap Owner.waqKey?
  reading : m'.outstandingOwners.filterMap Owner.captureKey? = m.outstandingOwners.filterMap Owner.captureKey?

namespace MPort.SameKeys

variable {m m' m'' : MPort}

theorem of_eq (hw : m'.waiting = m.waiting) (ho : m'.outstanding = m.outstanding) : m.SameKeys m' := by
  constructor <;> simp [MPort.waitingOwners, MPort.outstandingOwners, hw, ho]

theorem refl (m : MPort) : m.SameKeys m := of_eq rfl rfl

theorem trans (h : m.SameKeys m') (h' : m'.SameKeys m'') : m.SameKeys m'' :=
  ⟨h'.ready.trans h.ready, h'.asked.trans h.asked, h'.issued.trans h.issued, h'.reading.trans h.reading⟩

end MPort.SameKeys

/-- An owner without an entry whose requests lose their owner or leave. -/
theorem filterMap_abandoned {κ : Type} {key : Owner → Option κ} {o : Owner} (ho : key o = none)
    (ha : key .abandoned = none) (l : List Owner) :
    (l.map fun x => if x = o then Owner.abandoned else x).filterMap key = l.filterMap key := by
  rw [List.filterMap_map]
  refine List.filterMap_congr fun x _ => ?_
  simp only [Function.comp_apply]
  split
  case isTrue h => rw [h, ho, ha]
  case isFalse => rfl

theorem filterMap_withdrawn {κ : Type} {key : Owner → Option κ} {o : Owner} (ho : key o = none)
    (l : List Owner) : (l.filter fun x => x != o).filterMap key = l.filterMap key := by
  rw [List.filterMap_filter]
  refine List.filterMap_congr fun x _ => ?_
  by_cases h : x = o
  · simp [h, ho]
  · simp [h]

theorem State.abandon_waitingOwners (s : State) (o : Owner) :
    (s.abandon o).mport.waitingOwners =
        s.mport.waitingOwners.map (fun x => if x = o then Owner.abandoned else x) ∨
      (s.abandon o).mport.waitingOwners = s.mport.waitingOwners.filter fun x => x != o := by
  cases hc : Config.abandonedStaysWaiting
  · right
    rw [MPort.waitingOwners, State.abandon_waiting_leaves hc, MPort.waitingOwners, List.filter_map]
    rfl
  · left
    rw [MPort.waitingOwners, State.abandon_waiting_stays hc, MPort.waitingOwners, List.map_map, List.map_map]
    refine List.map_congr_left fun r _ => ?_
    simp only [Function.comp_apply]
    split <;> rfl

theorem State.abandon_outstandingOwners (s : State) (o : Owner) :
    (s.abandon o).mport.outstandingOwners =
      s.mport.outstandingOwners.map fun x => if x = o then Owner.abandoned else x := by
  simp only [MPort.outstandingOwners, State.abandon, List.map_map]
  refine List.map_congr_left fun r _ => ?_
  simp only [Function.comp_apply]
  split <;> rfl

/-- Abandoning the requests of an owner without an entry. -/
theorem State.abandon_sameKeys (s : State) {o : Owner} (ho : o.keyless) :
    s.mport.SameKeys (s.abandon o).mport := by
  obtain ⟨hw, hc⟩ := ho
  refine ⟨?_, ?_, ?_, ?_⟩
  · rcases s.abandon_waitingOwners o with h | h <;> rw [h]
    · exact filterMap_abandoned hw rfl _
    · exact filterMap_withdrawn hw _
  · rcases s.abandon_waitingOwners o with h | h <;> rw [h]
    · exact filterMap_abandoned hc rfl _
    · exact filterMap_withdrawn hc _
  · rw [s.abandon_outstandingOwners]
    exact filterMap_abandoned hw rfl _
  · rw [s.abandon_outstandingOwners]
    exact filterMap_abandoned hc rfl _

theorem State.join_waitingOwners (s : State) (o : Owner) (k : Access) (a : Addr) (n : Nat)
    (m : BitVec 64) (d : Line) :
    (s.join o k a n m d).mport.waitingOwners = s.mport.waitingOwners ++ [o] := by
  simp [State.join, MPort.waitingOwners]

theorem State.join_outstandingOwners (s : State) (o : Owner) (k : Access) (a : Addr) (n : Nat)
    (m : BitVec 64) (d : Line) :
    (s.join o k a n m d).mport.outstandingOwners = s.mport.outstandingOwners := rfl

theorem State.join_sameKeys (s : State) {o : Owner} (ho : o.keyless) (k : Access) (a : Addr) (n : Nat)
    (m : BitVec 64) (d : Line) : s.mport.SameKeys (s.join o k a n m d).mport :=
  ⟨by rw [State.join_waitingOwners]; simp [ho.1], by rw [State.join_waitingOwners]; simp [ho.2], rfl, rfl⟩

theorem State.makeReady_waitingOwners (s : State) (t : Transaction) :
    (s.makeReady t).mport.waitingOwners = s.mport.waitingOwners ++ [.waq t.requester t.tag] := by
  obtain ⟨r, hr, h⟩ := (s.setWaqState t.requester t.tag .ready).joinForward_frame t
  rw [State.makeReady, h]
  simp [MPort.waitingOwners, hr]

theorem State.makeReady_waq (s : State) (t : Transaction) :
    (s.makeReady t).waq = setState s.waq t.requester t.tag .ready := by
  obtain ⟨_, -, h⟩ := (s.setWaqState t.requester t.tag .ready).joinForward_frame t
  rw [State.makeReady, h]
  rfl

theorem State.makeReady_outstandingOwners (s : State) (t : Transaction) :
    (s.makeReady t).mport.outstandingOwners = s.mport.outstandingOwners := by
  simp [MPort.outstandingOwners]

/-! ### What keeps the ties -/

section Ties

variable {s u : State} {x : List Owner} {e : WaqEntry} {q : BitVec 4} {g : BitVec 6} {o : Owner}

/-- Entries may change beside key, state and transaction. -/
theorem State.Tracks.map (h : s.Tracks x) (hm : s.mport.SameKeys u.mport) (f : WaqEntry → WaqEntry)
    (ht : ∀ e, (f e).txn = e.txn) (hs : ∀ e, (f e).state = e.state) (hw : u.waq = s.waq.map f) :
    u.Tracks x := by
  have hkey : ∀ e, (f e).key = e.key := fun e => by simp only [WaqEntry.key, ht e]
  have hkeys (st : WaqState) : keysIn u.waq st = keysIn s.waq st := by
    rw [hw]
    exact keysIn_map (fun e _ => hkey e) fun e _ => by rw [hs]
  refine ⟨?_, ?_, ?_, ?_, ?_⟩
  · rw [hw, List.map_map]
    exact (List.map_congr_left fun e _ => hkey e).symm ▸ h.keys_once
  · rw [hkeys, hm.ready]
    exact h.ready
  · rw [hkeys, List.filterMap_append, hm.issued, ← List.filterMap_append]
    exact h.issued
  · rw [hkeys, List.filterMap_append, List.filterMap_append, hm.asked, hm.reading, ← List.filterMap_append,
      ← List.filterMap_append]
    exact h.capturing
  · intro e he hst
    rw [hw] at he
    obtain ⟨e', he', rfl⟩ := List.mem_map.mp he
    rw [hs] at hst
    rw [ht]
    exact h.writes e' he' hst

theorem State.Tracks.congr (h : s.Tracks x) (hw : u.waq = s.waq) (hm : s.mport.SameKeys u.mport) :
    u.Tracks x := h.map hm id (fun _ => rfl) (fun _ => rfl) (by rw [hw, List.map_id])

theorem State.Linked.congr (h : s.Linked x) (hw : u.waq = s.waq) (hm : s.mport.SameKeys u.mport) :
    u.Linked x := ⟨h.1.congr hw hm, by rw [State.headsDecided, hw]; exact h.2⟩

/-- What changes neither the WAQ nor the M port keeps the ties. -/
theorem State.Linked.frame (h : s.Linked x) (hw : u.waq = s.waq) (hm : u.mport = s.mport) : u.Linked x :=
  h.congr hw (hm ▸ .refl _)

/-- An owner without an entry has nothing to act on. -/
theorem State.tracks_keyless (ho : o.keyless) : s.Tracks (o :: x) ↔ s.Tracks x := by
  have hw (l : List Owner) : (o :: x ++ l).filterMap Owner.waqKey? = (x ++ l).filterMap Owner.waqKey? :=
    List.filterMap_cons_none ho.1
  have hc (l : List Owner) :
      (o :: x ++ l).filterMap Owner.captureKey? = (x ++ l).filterMap Owner.captureKey? :=
    List.filterMap_cons_none ho.2
  constructor
  · exact fun ⟨h1, h2, h3, h4, h5⟩ => ⟨h1, h2, hw _ ▸ h3, hc _ ▸ h4, h5⟩
  · exact fun ⟨h1, h2, h3, h4, h5⟩ => ⟨h1, h2, (hw _).symm ▸ h3, (hc _).symm ▸ h4, h5⟩

/-- The entry of an ended FORWARD request is ISSUED. -/
theorem State.Tracks.issued_entry (h : s.Tracks (.waq q g :: x)) :
    ∃ e ∈ s.waq, e.state = .issued ∧ e.key = (q, g) :=
  mem_keysIn.mp (h.issued.subset (by simp))

/-- The entry of an ended capture read is CAPTURING. -/
theorem State.Tracks.captured_entry (h : s.Tracks (.capture q g :: x)) :
    ∃ e ∈ s.waq, e.state = .capturing ∧ e.key = (q, g) :=
  mem_keysIn.mp (h.capturing.subset (by simp))

/-- What is asked of the entries in a state after one entry has taken it. -/
theorem writes_setState {waq : List WaqEntry} {st : WaqState}
    (h : ∀ e ∈ waq, e.state = .parked ∨ e.state = .captureWait ∨ e.state = .capturing → e.txn.kind = .write)
    (hst : ∀ e ∈ waq, e.key = (q, g) →
      st = .parked ∨ st = .captureWait ∨ st = .capturing → e.txn.kind = .write) :
    ∀ e ∈ setState waq q g st,
      e.state = .parked ∨ e.state = .captureWait ∨ e.state = .capturing → e.txn.kind = .write := by
  intro e he
  obtain ⟨e', he', rfl⟩ := List.mem_map.mp he
  split
  case isTrue hk => exact hst e' he' ((e'.keyIs_iff q g).mp hk)
  case isFalse => exact h e' he'

/-- An entry whose requests nothing tracks leaves the WAQ. -/
theorem State.Tracks.remove (h : s.Tracks x) (he : e ∈ s.waq) (hr : e.state ≠ .ready) (hi : e.state ≠ .issued)
    (hc : e.state ≠ .capturing) (hu : u.waq = without s.waq e.txn.requester e.txn.tag)
    (hm : s.mport.SameKeys u.mport) : u.Tracks x := by
  have other (st : WaqState) (hst : st ≠ e.state) : keysIn u.waq st = keysIn s.waq st := by
    rw [hu]
    exact keysIn_without_other h.keys_once he rfl hst
  refine ⟨?_, ?_, ?_, ?_, ?_⟩
  · rw [hu]
    exact keys_without_nodup h.keys_once _ _
  · rw [other _ hr.symm, hm.ready]
    exact h.ready
  · rw [other _ hi.symm, List.filterMap_append, hm.issued, ← List.filterMap_append]
    exact h.issued
  · rw [other _ hc.symm, List.filterMap_append, List.filterMap_append, hm.asked, hm.reading,
      ← List.filterMap_append, ← List.filterMap_append]
    exact h.capturing
  · rw [hu]
    exact fun e he => h.writes e (List.mem_of_mem_filter he)

/-- The ISSUED entry of an ended FORWARD request leaves the WAQ (R152). -/
theorem State.Tracks.removeIssued (h : s.Tracks (.waq q g :: x)) : (s.removeWaq q g).Tracks x := by
  obtain ⟨e, he, hs, hk⟩ := h.issued_entry
  refine ⟨keys_without_nodup h.keys_once _ _, ?_, ?_, ?_, ?_⟩
  · rw [s.removeWaq_eq, keysIn_without_other h.keys_once he hk (by rw [hs]; decide)]
    exact h.ready
  · have := hs ▸ keysIn_without_old h.keys_once he hk
    exact (h.issued.trans this).cons_inv
  · rw [s.removeWaq_eq, keysIn_without_other h.keys_once he hk (by rw [hs]; decide)]
    exact h.capturing
  · exact fun e he => h.writes e (List.mem_of_mem_filter he)

/-- The CAPTURING entry of an ended capture read leaves the WAQ (R74, R75, R76). -/
theorem State.Tracks.removeCapturing (h : s.Tracks (.capture q g :: x)) : (s.removeWaq q g).Tracks x := by
  obtain ⟨e, he, hs, hk⟩ := h.captured_entry
  refine ⟨keys_without_nodup h.keys_once _ _, ?_, ?_, ?_, ?_⟩
  · rw [s.removeWaq_eq, keysIn_without_other h.keys_once he hk (by rw [hs]; decide)]
    exact h.ready
  · rw [s.removeWaq_eq, keysIn_without_other h.keys_once he hk (by rw [hs]; decide)]
    exact h.issued
  · have := hs ▸ keysIn_without_old h.keys_once he hk
    exact (h.capturing.trans this).cons_inv
  · exact fun e he => h.writes e (List.mem_of_mem_filter he)

/-- An entry whose requests nothing tracks becomes READY (R61). -/
theorem State.Tracks.makeReady (h : s.Tracks x) (he : e ∈ s.waq) (hr : e.state ≠ .ready)
    (hi : e.state ≠ .issued) (hc : e.state ≠ .capturing) : (s.makeReady e.txn).Tracks x := by
  refine ⟨?_, ?_, ?_, ?_, ?_⟩ <;> rw [State.makeReady_waq]
  · rw [keys_setState]
    exact h.keys_once
  · rw [State.makeReady_waitingOwners, List.filterMap_append]
    exact (List.perm_append_singleton _ _).trans
      ((h.ready.cons _).trans (keysIn_setState_new h.keys_once he rfl hr).symm)
  · rw [State.makeReady_outstandingOwners, keysIn_setState_other h.keys_once he rfl hi.symm (by decide)]
    exact h.issued
  · rw [State.makeReady_outstandingOwners, State.makeReady_waitingOwners,
      keysIn_setState_other h.keys_once he rfl hc.symm (by decide)]
    simpa [List.filterMap_cons] using h.capturing
  · exact writes_setState h.writes fun _ _ _ => by simp

/-- The write of an ended capture read becomes READY (R73). -/
theorem State.Tracks.makeReadyCaptured {t : Transaction}
    (h : s.Tracks (.capture t.requester t.tag :: x)) : (s.makeReady t).Tracks x := by
  obtain ⟨e, he, hs, hk⟩ := h.captured_entry
  have hne : e.state ≠ .ready := by rw [hs]; decide
  refine ⟨?_, ?_, ?_, ?_, ?_⟩ <;> rw [State.makeReady_waq]
  · rw [keys_setState]
    exact h.keys_once
  · rw [State.makeReady_waitingOwners, List.filterMap_append]
    exact (List.perm_append_singleton _ _).trans
      ((h.ready.cons _).trans (keysIn_setState_new h.keys_once he hk hne).symm)
  · rw [State.makeReady_outstandingOwners,
      keysIn_setState_other h.keys_once he hk (by rw [hs]; decide) (by decide)]
    exact h.issued
  · have old := hs ▸ keysIn_setState_old h.keys_once he hk hne
    rw [State.makeReady_outstandingOwners, State.makeReady_waitingOwners]
    simpa [List.filterMap_cons] using (h.capturing.trans old).cons_inv
  · exact writes_setState h.writes fun _ _ _ => by simp

/-- A write whose requests nothing tracks waits for a capture (R60). -/
theorem State.Tracks.awaitCapture (h : s.Tracks x) (he : e ∈ s.waq) (hr : e.state ≠ .ready)
    (hi : e.state ≠ .issued) (hc : e.state ≠ .capturing) (hk : e.txn.kind = .write) :
    (s.setWaqState e.txn.requester e.txn.tag .captureWait).Tracks x := by
  refine ⟨?_, ?_, ?_, ?_, ?_⟩ <;> rw [State.setWaqState_eq]
  · rw [keys_setState]
    exact h.keys_once
  · rw [keysIn_setState_other h.keys_once he rfl hr.symm (by decide)]
    exact h.ready
  · rw [keysIn_setState_other h.keys_once he rfl hi.symm (by decide)]
    exact h.issued
  · rw [keysIn_setState_other h.keys_once he rfl hc.symm (by decide)]
    exact h.capturing
  · exact writes_setState h.writes fun e' he' hk' _ => by rwa [eq_of_key h.keys_once he he' hk']

/-- A head leaves WAITING (R59, R60). -/
theorem State.Tracks.settleHead (h : s.Tracks x) (he : e ∈ s.waq) (hs : e.state = .waiting) :
    (s.settleHead e).Tracks x := by
  have hr : e.state ≠ .ready := by rw [hs]; decide
  have hi : e.state ≠ .issued := by rw [hs]; decide
  have hc : e.state ≠ .capturing := by rw [hs]; decide
  rcases s.settleHead_cases e with ⟨-, -, h'⟩ | ⟨-, h'⟩ | ⟨hk, -, -, -, h'⟩ <;> rw [h']
  · exact h.remove he hr hi hc rfl (.of_eq rfl rfl)
  · exact h.makeReady he hr hi hc
  · exact h.awaitCapture he hr hi hc hk

theorem State.tracks_advanceBy (n : Nat) : ∀ {s : State}, s.Tracks x → (s.advanceBy n).Tracks x := by
  induction n with
  | zero => exact id
  | succ n ih =>
    intro s h
    unfold State.advanceBy
    split
    · exact h
    case h_2 e hsome =>
      obtain ⟨he, hs, -⟩ := nextHead_spec _ hsome
      exact ih (h.settleHead he hs)

theorem State.Tracks.advance (h : s.Tracks x) : s.advance.Linked x :=
  ⟨State.tracks_advanceBy _ h, s.advance_headsDecided⟩

/-- A free Capture Buffer entry is granted to a write that waits for one (R71, R72). -/
theorem State.Tracks.grantCapture (h : s.Tracks x) (he : e ∈ s.waq) (hs : e.state = .captureWait) :
    (s.grantCapture e.txn).Tracks x := by
  have hne : e.state ≠ .capturing := by rw [hs]; decide
  have hwaq : (s.grantCapture e.txn).waq = setState s.waq e.txn.requester e.txn.tag .capturing := rfl
  have hwait : (s.grantCapture e.txn).mport.waitingOwners =
      s.mport.waitingOwners ++ [.capture e.txn.requester e.txn.tag] := by
    simp [State.grantCapture, State.joinLineRead, MPort.waitingOwners]
  have hout : (s.grantCapture e.txn).mport.outstandingOwners = s.mport.outstandingOwners := rfl
  refine ⟨?_, ?_, ?_, ?_, ?_⟩ <;> rw [hwaq]
  · rw [keys_setState]
    exact h.keys_once
  · rw [hwait, keysIn_setState_other h.keys_once he rfl (by rw [hs]; decide) (by decide)]
    simpa [List.filterMap_cons] using h.ready
  · rw [hout, keysIn_setState_other h.keys_once he rfl (by rw [hs]; decide) (by decide)]
    exact h.issued
  · rw [hwait, hout]
    refine List.Perm.trans ?_ ((h.capturing.cons _).trans (keysIn_setState_new h.keys_once he rfl hne).symm)
    simp only [List.filterMap_append, List.filterMap_cons, Owner.keys_capture, List.append_assoc, List.singleton_append]
    rw [← List.append_assoc, ← List.append_assoc]
    exact List.perm_middle
  · refine writes_setState h.writes fun e' he' hk' _ => ?_
    rw [eq_of_key h.keys_once he he' hk']
    exact h.writes e he (.inr (.inl hs))

end Ties

end Sys2Proof.Machine
end

section
/-! PROOFS. One request for each entry that needs one, and every head decided, through the operations of the
part. O59. -/

namespace Sys2Proof.Machine

set_option Elab.async false

section Operations

variable {s u : State} {sl : Slot} {w : Walk} {b : Bool} {res : CommandResult} {why : Reason} {d : BitVec 768}
  {rep : Report} {src : Source} {t : Transaction} {k : EventKind} {p n m tie : Nat} {failure : WalkFailure}
  {l : RecordLine} {a : MemAnswer} {rec : Record} {q : BitVec 4} {g : BitVec 6} {image header : Line}
  {sc : Scan} {r : Request} {i : BitVec 8} {c : Checkpoint} {cause : ReleaseCause} {code index : Byte}
  {bytes : List Byte} {target : WriteTarget} {op : Operation} {sources : SealSources} {cmd : Bool}
  {trig : Trigger} {o o' : Owner} {kind : Access} {addr : Addr} {mask : BitVec 64} {data : Line}
  {st : WaqState} {e : WaqEntry} {x : List Owner}

/-! ### The WAQ -/

/-- An entry that neither waits nor has been issued may take such another state. -/
theorem headsDecided_setState (hn : (s.waq.map WaqEntry.key).Nodup) (he : e ∈ s.waq) (hk : e.key = (q, g))
    (hw : e.state ≠ .waiting) (hi : e.state ≠ .issued) (hw' : st ≠ .waiting) (hi' : st ≠ .issued)
    (h : s.headsDecided) (hu : u.waq = setState s.waq q g st) : u.headsDecided := by
  have key (y : WaqEntry) (hy : y ∈ s.waq) (hy' : y.keyIs q g = true) : y = e :=
    eq_of_key hn he hy (((y.keyIs_iff q g).mp hy').trans hk.symm)
  unfold State.headsDecided at h ⊢
  rw [hu]
  refine (nextHead_map ?_ ?_ ?_ []).mpr h <;> intro y hy <;> split
  case refine_2.isTrue hk => simp [key y hy hk, hw, hw']
  case refine_3.isTrue hk => simp [key y hy hk, hi, hi']
  all_goals rfl

theorem State.Linked.grantCapture (h : s.Linked x) (he : e ∈ s.waq) (hs : e.state = .captureWait) :
    (s.grantCapture e.txn).Linked x := by
  refine ⟨h.1.grantCapture he hs, headsDecided_setState (st := .capturing) h.1.keys_once he rfl ?_ ?_ ?_ ?_ h.2 rfl⟩
  · rw [hs]; decide
  · rw [hs]; decide
  · decide
  · decide

/-- The oldest write that waits for a capture is an entry that does. -/
theorem State.oldestCaptureWait_spec (h : s.oldestCaptureWait = some e) :
    e ∈ s.waq ∧ e.state = .captureWait :=
  ⟨List.mem_of_find?_eq_some h, by simpa using List.find?_some h⟩

/-- What each grant keeps, the grants keep. -/
theorem State.grantCaptures_induction {P : State → Prop}
    (hP : ∀ s e, P s → e ∈ s.waq → e.state = .captureWait → P (s.grantCapture e.txn)) (h : P s) :
    P s.grantCaptures := by
  suffices ∀ n s, P s → P (s.grantCapturesBy n) from this _ _ h
  intro n
  induction n with
  | zero => exact fun _ h => h
  | succ n ih =>
    intro s h
    unfold State.grantCapturesBy
    split
    · split
      · exact h
      case h_2 e hsome =>
        obtain ⟨he, hs⟩ := State.oldestCaptureWait_spec hsome
        exact ih _ (hP s e h he hs)
    · exact h

theorem State.Linked.grantCaptures (h : s.Linked x) : s.grantCaptures.Linked x :=
  State.grantCaptures_induction (fun _ _ h he hs => h.grantCapture he hs) h

theorem State.Tracks.grantCaptures (h : s.Tracks x) : s.grantCaptures.Tracks x :=
  State.grantCaptures_induction (fun _ _ h he hs => h.grantCapture he hs) h

/-- The entries the fence leaves (R49). -/
def fenced (waq : List WaqEntry) : List WaqEntry :=
  (waq.filter fun e => !fenceRemoves e).map fun e => if e.state = .capturing then { e with marked := true } else e

theorem mem_fenced {waq : List WaqEntry} (he : e ∈ fenced waq) :
    ∃ e' ∈ waq, e.txn = e'.txn ∧ e.state = e'.state ∧ (e.state = .capturing ∨ e.state = .issued) := by
  obtain ⟨e', he', rfl⟩ := List.mem_map.mp he
  obtain ⟨hm, hr⟩ := List.mem_filter.mp he'
  refine ⟨e', hm, ?_⟩
  cases hs : e'.state
  case capturing => exact ⟨rfl, rfl, .inl rfl⟩
  case issued => exact ⟨rfl, hs, .inr hs⟩
  all_goals simp [fenceRemoves, hs] at hr

theorem keysIn_fenced {waq : List WaqEntry} (hst : st = .issued ∨ st = .capturing) :
    keysIn (fenced waq) st = keysIn waq st := by
  unfold fenced
  rw [keysIn_map, keysIn_filter]
  · intro e _ hs
    rcases hst with rfl | rfl <;> simp [fenceRemoves, hs]
  · intro e _
    split <;> rfl
  · intro e _
    split <;> rfl

/-- The fence leaves nothing waiting, and no FORWARD request waits (R49). -/
theorem State.Linked.enterFence (h : s.Linked x) : s.enterFence.Linked x := by
  by_cases hg : s.gate.state = .fence
  case pos => rwa [State.enterFence_of_fence hg]
  have hwaq : s.enterFence.waq = fenced s.waq := by rw [State.enterFence_of_open hg, State.fenceRemovals_eq]; rfl
  have hout : s.enterFence.mport.outstandingOwners = s.mport.outstandingOwners := by
    simp [MPort.outstandingOwners]
  have hwait : s.enterFence.mport.waitingOwners = s.mport.waitingOwners.filter fun o => !o.isWaq := by
    rw [State.enterFence_of_open hg, State.fenceRemovals_eq]
    simp only [MPort.waitingOwners]
    rw [List.filter_map]
    rfl
  obtain ⟨h1, h2, h3, h4, h5⟩ := h.1
  refine ⟨⟨?_, ?_, ?_, ?_, ?_⟩, ?_⟩
  · rw [hwaq, fenced, List.map_map]
    refine List.Nodup.sublist ?_ h1
    refine (List.map_congr_left fun e _ => ?_) ▸ List.filter_sublist.map WaqEntry.key
    simp only [Function.comp_apply]
    split <;> rfl
  · have hk : keysIn s.enterFence.waq .ready = [] := by
      refine List.eq_nil_iff_forall_not_mem.mpr fun key hkey => ?_
      obtain ⟨e, he, hs, -⟩ := mem_keysIn.mp hkey
      obtain ⟨-, -, -, -, hst⟩ := mem_fenced (hwaq ▸ he)
      rw [hs] at hst
      exact hst.elim nofun nofun
    have hr : s.enterFence.mport.waitingOwners.filterMap Owner.waqKey? = [] := by
      rw [hwait, List.filterMap_eq_nil_iff]
      intro o ho
      have := (List.mem_filter.mp ho).2
      cases o
      case waq => exact nomatch this
      all_goals rfl
    rw [hk, hr]
  · rw [hout, hwaq, keysIn_fenced (.inl rfl)]
    exact h3
  · rw [hout, hwaq, keysIn_fenced (.inr rfl), hwait]
    have : (s.mport.waitingOwners.filter fun o => !o.isWaq).filterMap Owner.captureKey? =
        s.mport.waitingOwners.filterMap Owner.captureKey? := by
      rw [List.filterMap_filter]
      refine List.filterMap_congr fun o _ => ?_
      cases o <;> rfl
    rw [List.filterMap_append, List.filterMap_append, this, ← List.filterMap_append, ← List.filterMap_append]
    exact h4
  · rw [hwaq]
    intro e he hst
    obtain ⟨e', he', ht, hs, -⟩ := mem_fenced he
    rw [ht]
    exact h5 e' he' (hs ▸ hst)
  · refine nextHead_eq_none_of_no_waiting (fun e he hs => ?_) []
    obtain ⟨-, -, -, -, hst⟩ := mem_fenced (hwaq ▸ he)
    rw [hs] at hst
    exact hst.elim nofun nofun

/-- The parked entries return to their chains, and the heads are decided (R48). -/
theorem State.Tracks.openHold (h : s.Tracks x) : s.openHold.Linked x := by
  have hkeys (st : WaqState) (hst : st = .ready ∨ st = .issued ∨ st = .capturing) :
      keysIn (s.waq.map fun e => if e.state = .parked then { e with state := .waiting } else e) st =
        keysIn s.waq st := by
    refine keysIn_map (fun e _ => by split <;> rfl) fun e _ => ?_
    split
    case isTrue hp => rcases hst with rfl | rfl | rfl <;> simp [hp]
    case isFalse => rfl
  unfold State.openHold
  refine State.Tracks.advance ⟨?_, ?_, ?_, ?_, ?_⟩
  · rw [List.map_map]
    refine (List.map_congr_left fun e _ => ?_) ▸ h.keys_once
    simp only [Function.comp_apply]
    split <;> rfl
  · exact (hkeys _ (.inl rfl)).symm ▸ h.ready
  · exact (hkeys _ (.inr (.inl rfl))).symm ▸ h.issued
  · exact (hkeys _ (.inr (.inr rfl))).symm ▸ h.capturing
  · intro e he hst
    obtain ⟨e', he', rfl⟩ := List.mem_map.mp he
    split at hst
    case isTrue => exact (hst.elim nofun fun h => h.elim nofun nofun)
    case isFalse hp =>
      rw [if_neg hp]
      exact h.writes e' he' hst

/-- The WAQ with the undecided writes back in their chains (R62). -/
def undone (waq : List WaqEntry) : List WaqEntry :=
  waq.map fun e => if e.undecides then { e with state := .waiting } else e

/-- No undecided write has this key. -/
def keepsKey (waq : List WaqEntry) (k : BitVec 4 × BitVec 6) : Bool :=
  !waq.any fun e => e.undecides && Owner.waq k.1 k.2 == .waq e.txn.requester e.txn.tag

theorem keepsKey_iff (waq : List WaqEntry) (k : BitVec 4 × BitVec 6) :
    keepsKey waq k = true ↔ ∀ e ∈ waq, e.undecides = true → e.key ≠ k := by
  have (e : WaqEntry) : (Owner.waq k.1 k.2 == .waq e.txn.requester e.txn.tag) = true ↔ e.key = k := by
    simp only [beq_iff_eq, Owner.waq.injEq, WaqEntry.key, Prod.ext_iff]
    exact ⟨fun h => ⟨h.1.symm, h.2.symm⟩, fun h => ⟨h.1.symm, h.2.symm⟩⟩
  simp [keepsKey, ← this, not_and]

/-- The READY entries that are left are those whose key no undecided write has. -/
theorem keysIn_undone_ready {waq : List WaqEntry} (hn : (waq.map WaqEntry.key).Nodup) :
    keysIn (undone waq) .ready = (keysIn waq .ready).filter (keepsKey waq) := by
  have hkey : WaqEntry.key ∘ (fun e => if e.undecides then { e with state := .waiting } else e) =
      WaqEntry.key := by
    funext e
    simp only [Function.comp_apply]
    split <;> rfl
  unfold keysIn undone
  rw [List.filter_map, List.map_map, hkey, List.filter_map, List.filter_filter]
  congr 1
  refine List.filter_congr fun e he => Bool.eq_iff_iff.mpr ?_
  simp only [Function.comp_apply, Bool.and_eq_true, keepsKey_iff, beq_iff_eq]
  by_cases hu : e.undecides = true
  · simp only [hu, if_true, reduceCtorEq, false_iff, not_and]
    exact fun hk => absurd rfl (hk e he hu)
  · simp only [hu, Bool.false_eq_true, if_false]
    exact ⟨fun hs => ⟨fun y hy hyu hk => hu (eq_of_key hn he hy hk ▸ hyu), hs⟩, And.right⟩

/-- The requests of the undecided writes are withdrawn, and no others. -/
theorem State.withdrawn_owners (s : State) :
    ((s.mport.waiting.filter fun r => !s.waq.any fun e => e.undecides && e.owns r).map
          (·.owner)).filterMap Owner.waqKey? =
        (s.mport.waitingOwners.filterMap Owner.waqKey?).filter (keepsKey s.waq) ∧
      ((s.mport.waiting.filter fun r => !s.waq.any fun e => e.undecides && e.owns r).map
          (·.owner)).filterMap Owner.captureKey? = s.mport.waitingOwners.filterMap Owner.captureKey? := by
  have hw : (s.mport.waiting.filter fun r => !s.waq.any fun e => e.undecides && e.owns r).map (·.owner) =
      s.mport.waitingOwners.filter fun o =>
        !s.waq.any fun e => e.undecides && o == .waq e.txn.requester e.txn.tag := by
    rw [MPort.waitingOwners, List.filter_map]
    rfl
  rw [hw]
  constructor
  · rw [List.filterMap_filter, List.filter_filterMap]
    refine List.filterMap_congr fun o _ => ?_
    cases o
    case waq q g => rfl
    all_goals simp [Owner.waqKey?]
  · rw [List.filterMap_filter]
    refine List.filterMap_congr fun o _ => ?_
    cases o
    case capture q g => simp
    all_goals simp [Owner.captureKey?]

/-- The undecided writes return to their chains, their requests withdrawn, and the heads are decided (R62). -/
theorem State.Tracks.redecide (h : s.Tracks x) : s.redecide.Linked x := by
  have hback (st : WaqState) (hst : st = .issued ∨ st = .capturing) :
      keysIn (undone s.waq) st = keysIn s.waq st := by
    refine keysIn_map (fun e _ => by split <;> rfl) fun e _ => ?_
    split
    case isTrue hu =>
      have : e.state = .ready ∨ e.state = .captureWait := by
        simpa [WaqEntry.undecides] using (Bool.and_eq_true_iff.mp hu).2
      rcases hst with rfl | rfl <;> rcases this with hs | hs <;> simp [hs]
    case isFalse => rfl
  obtain ⟨hready, hcapture⟩ := s.withdrawn_owners
  unfold State.redecide
  refine State.Tracks.advance ⟨?_, ?_, ?_, ?_, ?_⟩
  · rw [List.map_map]
    refine (List.map_congr_left fun e _ => ?_) ▸ h.keys_once
    simp only [Function.comp_apply]
    split <;> rfl
  · exact (hready.symm ▸ keysIn_undone_ready h.keys_once ▸ h.ready.filter _)
  · exact (hback _ (.inl rfl)).symm ▸ h.issued
  · refine ((hback _ (.inr rfl)).symm ▸ h.capturing).symm.trans ?_ |>.symm
    rw [List.filterMap_append, List.filterMap_append, List.filterMap_append, List.filterMap_append]
    exact hcapture ▸ .refl _
  · intro e he hst
    obtain ⟨e', he', rfl⟩ := List.mem_map.mp he
    split at hst
    case isTrue => exact (hst.elim nofun fun h => h.elim nofun nofun)
    case isFalse hp =>
      rw [if_neg hp]
      exact h.writes e' he' hst

/-! ### The operations -/

section

variable (h : s.Linked x)

include h

theorem linked_report : (s.report rep).Linked x := h.frame rfl rfl

theorem linked_complete : (s.complete res why d).Linked x := h.frame rfl rfl

theorem linked_completeIf : (s.completeIf b res why d).Linked x := h.frame (by simp) (by simp)

theorem linked_join (ho : o.keyless) : (s.join o kind addr n mask data).Linked x :=
  h.congr rfl (s.join_sameKeys ho ..)

theorem linked_joinRecordReads (ho : o.keyless) (ho' : o'.keyless) : (s.joinRecordReads o o' p).Linked x :=
  linked_join (linked_join h ho) ho'

theorem linked_abandon (ho : o.keyless) : (s.abandon o).Linked x := h.congr rfl (s.abandon_sameKeys ho)

theorem linked_closeStep : s.closeStep.Linked x := h.grantCaptures.congr rfl (.of_eq rfl rfl)

theorem linked_stopScan : (s.stopScan res).Linked x := by
  unfold State.stopScan
  split
  · exact h
  · exact linked_complete ((linked_abandon (linked_abandon h ⟨rfl, rfl⟩) ⟨rfl, rfl⟩).frame rfl rfl)

/-- Entries accepted before the hold are noted as such (R63). -/
theorem linked_startGather : (s.startGather op src sources cmd).Linked x :=
  ⟨h.1.map (.refl _) (fun e => { e with beforeHold := true }) (fun _ => rfl) (fun _ => rfl) rfl,
    (nextHead_map (f := fun e => { e with beforeHold := true }) (fun _ _ => rfl) (fun _ _ => Iff.rfl)
      (fun _ _ => Iff.rfl) []).mpr h.2⟩

theorem linked_requestSeal : (s.requestSeal src).Linked x := by
  unfold State.requestSeal
  split
  · split
    · exact linked_startGather h
    · split
      · exact h.frame rfl rfl
      · exact h.frame rfl rfl
      · exact h.frame rfl rfl
      · exact linked_startGather (linked_stopScan h)
  · exact h

theorem linked_freeSlot : s.freeSlot.Linked x := by
  unfold State.freeSlot
  dsimp only
  split
  · split
    · exact h.frame rfl rfl
    · exact linked_startGather (h.frame rfl rfl)
  · exact h.frame rfl rfl

theorem linked_endHold : (s.endHold sl).Linked x := by
  unfold State.endHold
  split
  · exact h.1.openHold
  · exact h

theorem linked_epochOpen : s.epochOpen.Linked x := by
  have hl : (State.loadTimer (State.copyRegions { s with ltt := [] })).Linked x := h.frame rfl rfl
  exact hl.1.redecide

theorem linked_examineRelease : s.examineRelease.Linked x := h.frame (by simp) (by simp)

theorem linked_endRollbackGate : (s.endRollbackGate sl).Linked x := by
  unfold State.endRollbackGate
  split
  · exact h.frame rfl rfl
  · split
    · exact h.1.openHold
    · exact h

theorem linked_leaveRollback : s.leaveRollback.Linked x := by
  unfold State.leaveRollback
  exact linked_examineRelease (linked_freeSlot (h.frame rfl rfl))

theorem linked_abortGather : (s.abortGather sl).Linked x := by
  unfold State.abortGather
  exact linked_freeSlot (linked_completeIf ((linked_endHold h).frame rfl rfl))

theorem linked_preemptGather : (s.preemptGather sl).Linked x := by
  unfold State.preemptGather
  exact linked_completeIf (h.frame rfl rfl)

theorem linked_commit : (s.commit sl).Linked x := by
  unfold State.commit
  refine linked_completeIf ((linked_endHold (sl := sl) (linked_epochOpen (linked_report
    (h.frame ?_ ?_)))).frame rfl rfl) <;> rfl

theorem linked_limitEnd : (s.limitEnd sl).Linked x := by
  unfold State.limitEnd
  exact (linked_endHold (sl := sl) (linked_completeIf (linked_report h))).frame rfl rfl

theorem linked_discard : (s.discard sl).Linked x := by
  unfold State.discard
  refine linked_completeIf (State.Linked.frame (linked_endHold (sl := sl) ?_) rfl rfl)
  exact h.frame rfl rfl

theorem linked_failDrain : (s.failDrain sl w).Linked x := by
  unfold State.failDrain
  exact linked_leaveRollback (linked_completeIf ((linked_endRollbackGate (sl := sl) h).frame rfl rfl))

theorem linked_abortDrain : (s.abortDrain sl).Linked x := by
  unfold State.abortDrain
  exact linked_leaveRollback (linked_completeIf ((linked_endRollbackGate (sl := sl) h).frame rfl rfl))

theorem linked_checkTarget : s.checkTarget.Linked x := by
  rcases s.checkTarget_cases with he | ⟨_, _, -, -, -, -, -, he⟩ <;> rw [he]
  · exact h
  · exact linked_failDrain h

theorem linked_settle : (s.settle sl w).Linked x := by
  have hr : (s.rewound w).Linked x := h.frame rfl rfl
  have ho : (s.reopened w).Linked x := (linked_epochOpen hr).frame rfl rfl
  rw [State.settle_eq]
  exact linked_leaveRollback (linked_completeIf ((linked_endRollbackGate (sl := sl) ho).frame rfl rfl))

theorem linked_enterBroken : (s.enterBroken sl w p failure).Linked x := by
  unfold State.enterBroken
  have hf : (State.enterFence { s with epoch := { s.epoch with mode := .broken } }).Linked x :=
    State.Linked.enterFence (h.frame rfl rfl)
  exact linked_completeIf (hf.frame rfl rfl)

/-! ### The walk, captures, records and scans -/

theorem linked_writeBack : (s.writeBack w image header n).Linked x :=
  linked_join (s := { s with engine := some { w with writeAttempt := n } }) (h.frame rfl rfl) ⟨rfl, rfl⟩

theorem linked_beginRecord : (s.beginRecord w p).Linked x := by
  unfold State.beginRecord
  exact linked_joinRecordReads (h.frame rfl rfl) ⟨rfl, rfl⟩ ⟨rfl, rfl⟩

theorem linked_restoreRead : (s.restoreRead l a).Linked x := by
  have engaged (w' : Walk) : State.Linked x { s with engine := some w' } := h.frame rfl rfl
  unfold State.restoreRead
  split
  case h_2 => exact h
  case h_1 =>
    split
    case h_1 => exact h
    case h_2 =>
      dsimp only
      split
      · exact linked_join (engaged _) (by cases l <;> exact ⟨rfl, rfl⟩)
      · exact linked_enterBroken (linked_abandon (engaged _) (by cases l <;> exact ⟨rfl, rfl⟩))
      · split
        · unfold State.checkRecord
          split
          · exact linked_writeBack (engaged _)
          · exact linked_enterBroken (engaged _)
        · exact engaged _

theorem linked_restoreWritten : (s.restoreWritten a).Linked x := by
  unfold State.restoreWritten
  split
  case h_2 => exact h
  case h_1 =>
    split
    case h_2 => exact h
    case h_1 =>
      split
      · unfold State.restored
        dsimp only
        split
        · exact linked_settle (h.frame rfl rfl)
        · exact linked_beginRecord (h.frame rfl rfl)
      · split
        · exact linked_writeBack h
        · exact linked_enterBroken h

theorem linked_writeLine : (s.writeLine rec l n).Linked x := by
  have held : State.Linked x { s with
      captures := s.captures.map fun c =>
        if c.holds rec.position then { c with state := .writing rec l n } else c } := h.frame rfl rfl
  cases l
  · exact linked_join held ⟨rfl, rfl⟩
  · exact linked_join held ⟨rfl, rfl⟩

theorem linked_endRecord : (s.endRecord p).Linked x := by
  unfold State.endRecord
  exact State.Linked.grantCaptures (h.frame rfl rfl)

theorem linked_journalFault : (s.journalFault q rec l).Linked x := by
  unfold State.journalFault
  exact linked_checkTarget (linked_requestSeal (linked_endRecord (linked_report (h.frame rfl rfl))))

theorem linked_recordWritten : (s.recordWritten p l a).Linked x := by
  unfold State.recordWritten
  split
  case h_1 => exact h
  case h_2 =>
    split
    case h_2 => exact h
    case h_1 =>
      split
      · exact linked_writeLine h
      · exact linked_endRecord h
      · split
        · exact linked_writeLine h
        · exact linked_journalFault h

theorem linked_dropOldest : (s.dropOldest q).Linked x := by
  unfold State.dropOldest
  split
  · exact h.frame rfl rfl
  · exact h

omit h in
theorem linked_relieveBy (q : BitVec 4) (n : Nat) :
    ∀ {s : State}, s.Linked x → (s.relieveBy q n).Linked x := by
  induction n with
  | zero => exact id
  | succ n ih =>
    intro s h
    unfold State.relieveBy
    split
    · exact ih (linked_dropOldest h)
    · exact h

omit h in
/-- A refused capture ends, and the heads are decided (R74, R75, R76). -/
theorem linked_endCapture (h : s.Tracks (.capture t.requester t.tag :: x)) : (s.endCapture t k).Linked x := by
  unfold State.endCapture State.freeReading
  exact State.Tracks.advance (State.Tracks.grantCaptures
    (h.removeCapturing.congr rfl (.of_eq rfl rfl)))

omit h in
/-- The write whose image has been captured is READY, and its record's image write is asked for (R73). -/
theorem linked_place (h : s.Linked (.capture t.requester t.tag :: x)) : (s.place t image).Linked x := by
  unfold State.place
  obtain ⟨e, he, hs, hk⟩ := h.1.captured_entry
  refine linked_writeLine ⟨?_, ?_⟩
  · exact State.Tracks.makeReadyCaptured (h.1.congr rfl (.of_eq rfl rfl))
  · refine headsDecided_setState (s := s) (st := .ready) h.1.keys_once he hk ?_ ?_ ?_ ?_ h.2
      (State.makeReady_waq _ _)
    · rw [hs]; decide
    · rw [hs]; decide
    · decide
    · decide

omit h in
theorem linked_allocate (h : s.Linked (.capture t.requester t.tag :: x)) : (s.allocate t image).Linked x := by
  unfold State.allocate State.relieve
  have hq := linked_relieveBy t.requester s.epoch.table.length h
  dsimp only
  split
  · split
    · exact linked_place (linked_requestSeal hq)
    · exact linked_endCapture (linked_requestSeal hq).1
  · exact linked_place hq

omit h in
/-- The entry of a key is found (R57). -/
theorem State.waqEntry_spec (hn : s.waqEntry q g = some e) : e ∈ s.waq ∧ e.key = (q, g) :=
  ⟨List.mem_of_find?_eq_some hn, (e.keyIs_iff q g).mp (List.find?_some (p := fun y : WaqEntry => y.keyIs q g) hn)⟩

omit h in
theorem linked_captureRead (h : s.Linked (.capture q g :: x)) : (s.captureRead q g a).Linked x := by
  unfold State.captureRead
  split
  case h_1 hnone =>
    obtain ⟨e, he, -, hk⟩ := h.1.captured_entry
    exact absurd ((e.keyIs_iff q g).mpr hk) (List.find?_eq_none.mp hnone e he)
  case h_2 e hsome =>
    obtain ⟨-, hk⟩ := State.waqEntry_spec hsome
    obtain ⟨rfl, rfl⟩ := Prod.mk.inj hk
    split
    · exact linked_endCapture h.1
    · split
      · exact linked_checkTarget (linked_allocate h)
      · exact linked_endCapture h.1

theorem linked_scanOn : (s.scanOn sc).Linked x := by
  unfold State.scanOn State.completeScan
  dsimp only
  split
  · exact linked_freeSlot (h.frame rfl rfl)
  · exact linked_joinRecordReads (h.frame rfl rfl) ⟨rfl, rfl⟩ ⟨rfl, rfl⟩

theorem linked_verifyRead : (s.verifyRead l a).Linked x := by
  have scanning (sc' : Scan) : State.Linked x { s with scan := some sc' } := h.frame rfl rfl
  unfold State.verifyRead
  split
  case h_1 => exact h
  case h_2 =>
    dsimp only
    split
    · exact linked_join (scanning _) (by cases l <;> exact ⟨rfl, rfl⟩)
    · split
      · unfold State.takeScanned
        dsimp only
        split
        · exact linked_scanOn (scanning _)
        · split
          · exact linked_scanOn (h.frame rfl rfl)
          · exact linked_scanOn (scanning _)
      · exact scanning _

theorem linked_inspectRead : (s.inspectRead l a).Linked x := by
  unfold State.inspectRead
  split
  case h_1 => exact h
  case h_2 =>
    dsimp only
    split
    · exact linked_join (h.frame rfl rfl) (by cases l <;> exact ⟨rfl, rfl⟩)
    · split
      · exact h.frame rfl rfl
      · exact h.frame rfl rfl

/-! ### The steps of the data path -/

theorem linked_forwardEnds : (s.forwardEnds q g r a).Linked x := by
  unfold State.forwardEnds
  split
  · exact h.frame rfl rfl
  · split <;> exact h.frame rfl rfl

omit h in
/-- The ISSUED entry of an ended request blocked no head (R58). -/
theorem linked_removeIssued (h : s.Linked (.waq q g :: x)) : (s.removeWaq q g).Linked x := by
  refine ⟨h.1.removeIssued, ?_⟩
  obtain ⟨e, he, hs, hk⟩ := h.1.issued_entry
  refine (nextHead_filter (fun y hy hp => ?_) []).mpr h.2
  have hyk : y.keyIs q g = true := by simpa using hp
  rw [eq_of_key h.1.keys_once he hy (((y.keyIs_iff q g).mp hyk).trans hk.symm), hs]

omit h in
theorem State.Linked.keyless (ho : o.keyless) (h : s.Linked (o :: x)) : s.Linked x :=
  ⟨(State.tracks_keyless ho).mp h.1, h.2⟩

omit h in
theorem linked_ownerActs (h : s.Linked (r.owner :: x)) : (s.ownerActs r a).Linked x := by
  have other (ho : r.owner.keyless) : s.Linked x := h.keyless ho
  unfold State.ownerActs
  split
  case h_1 ho => exact linked_forwardEnds (linked_removeIssued (ho ▸ h))
  case h_2 ho => exact linked_forwardEnds (other (ho ▸ ⟨rfl, rfl⟩))
  case h_3 ho => exact linked_captureRead (ho ▸ h)
  case h_4 ho => exact linked_recordWritten (other (ho ▸ ⟨rfl, rfl⟩))
  case h_5 ho => exact linked_recordWritten (other (ho ▸ ⟨rfl, rfl⟩))
  case h_6 ho => exact linked_restoreRead (other (ho ▸ ⟨rfl, rfl⟩))
  case h_7 ho => exact linked_restoreRead (other (ho ▸ ⟨rfl, rfl⟩))
  case h_8 ho => exact linked_restoreWritten (other (ho ▸ ⟨rfl, rfl⟩))
  case h_9 ho => exact linked_verifyRead (other (ho ▸ ⟨rfl, rfl⟩))
  case h_10 ho => exact linked_verifyRead (other (ho ▸ ⟨rfl, rfl⟩))
  case h_11 ho => exact linked_inspectRead (other (ho ▸ ⟨rfl, rfl⟩))
  case h_12 ho => exact linked_inspectRead (other (ho ▸ ⟨rfl, rfl⟩))
  case h_13 ho => exact other (ho ▸ ⟨rfl, rfl⟩)

end

end Operations

end Sys2Proof.Machine
end

section
/-! PROOFS. One request for each entry that needs one, through every step. O59. -/

namespace Sys2Proof.Machine

set_option Elab.async false

section Steps

variable {s : State} {sl : Slot} {w : Walk} {res : CommandResult} {why : Reason} {d : BitVec 768}
  {t : Transaction} {tie : Nat} {a : MemAnswer} {r : Request} {i : BitVec 8} {c : Checkpoint}
  {cause : ReleaseCause} {code : Byte} {bytes : List Byte} {m : MPort}

/-! ### The M port -/

/-- The request of an identifier is one of the outstanding ones, and the others are left when it ends. -/
theorem MPort.outstandingOf_perm (hn : (m.outstanding.map (·.ident)).Nodup) (hr : m.outstandingOf i = some r) :
    m.outstandingOwners.Perm
      (r.owner :: (m.outstanding.filter fun o => o.ident != i).map (·.request.owner)) := by
  obtain ⟨o, ho, rfl⟩ := Option.map_eq_some_iff.mp hr
  have hi : o.ident = i := by simpa using List.find?_some ho
  obtain ⟨l₁, l₂, hsplit⟩ := List.append_of_mem (List.mem_of_find?_eq_some ho)
  rw [hsplit, List.map_append, List.map_cons, List.nodup_middle, List.nodup_cons, ← List.map_append] at hn
  have hne : ∀ y ∈ l₁ ++ l₂, (y.ident != i) = true := by
    intro y hy
    have : y.ident ≠ o.ident := fun hyo => hn.1 (hyo ▸ List.mem_map_of_mem hy)
    simpa [← hi] using this
  have hf : (l₁ ++ o :: l₂).filter (fun y => y.ident != i) = l₁ ++ l₂ := by
    rw [List.filter_append, List.filter_cons_of_neg (by simp [hi]), ← List.filter_append]
    exact List.filter_eq_self.mpr hne
  rw [MPort.outstandingOwners, hsplit, hf, List.map_append, List.map_append]
  exact List.perm_middle

theorem State.ResourcesOk.outstanding_nodup (h : s.ResourcesOk) :
    (s.mport.outstanding.map (·.ident)).Nodup := (List.nodup_append.mp h.idents_used_once).1

/-- An ended request's owner has yet to act (R147, R148). -/
theorem linked_freeRequest (hn : (s.mport.outstanding.map (·.ident)).Nodup)
    (hr : s.mport.outstandingOf i = some r) (h : s.Linked []) : (s.freeRequest i).Linked [r.owner] := by
  have hp := MPort.outstandingOf_perm hn hr
  obtain ⟨⟨h1, h2, h3, h4, h5⟩, h6⟩ := h
  refine ⟨⟨h1, h2, ?_, ?_, h5⟩, h6⟩
  · exact (hp.symm.filterMap _).trans h3
  · refine List.Perm.trans (List.Perm.filterMap _ ?_) h4
    change (r.owner :: (s.mport.waitingOwners ++
      (s.mport.outstanding.filter fun o => o.ident != i).map (·.request.owner))).Perm
        (s.mport.waitingOwners ++ s.mport.outstandingOwners)
    exact List.perm_middle.symm.trans (hp.symm.append_left _)

/-- The request that the arbiter chooses waits. -/
theorem MPort.choice_mem (h : m.choice tie = some r) : r ∈ m.waiting := by
  have top : ∀ x ∈ m.topClass, x ∈ m.waiting := by
    intro x hx
    have ofClass (c : RequestClass) (hx : x ∈ m.ofClass c) : x ∈ m.waiting := List.mem_of_mem_filter hx
    unfold MPort.topClass at hx
    split at hx
    · exact ofClass _ hx
    · split at hx
      · exact ofClass _ hx
      · split at hx
        · exact ofClass _ hx
        · exact ofClass _ hx
  have oldest : ∀ x ∈ m.oldest, x ∈ m.waiting := by
    intro x hx
    unfold MPort.oldest at hx
    split at hx
    · exact nomatch hx
    case h_2 y ys hy =>
      refine top x (hy ▸ ?_)
      rcases List.mem_cons.mp hx with rfl | hx
      · exact List.mem_cons_self ..
      · exact List.mem_cons_of_mem _ (List.mem_of_mem_filter hx)
  refine oldest r ?_
  unfold MPort.choice at h
  split at h
  · cases h
  case h_2 y hy =>
    cases h
    rw [hy]
    exact List.mem_singleton_self _
  case h_3 y ys _ hy =>
    rw [hy]
    exact List.mem_of_getElem? h

/-- A granted request has left the waiting set and is outstanding; the entry it belongs to becomes ISSUED, and
the next of its chain is decided (R58, R61, R149). -/
theorem linked_issue (hr : r ∈ s.mport.waiting) (h : s.Linked []) : ((s.send i r).issue r).Linked [] := by
  have hw : s.mport.waitingOwners.Perm (r.owner :: (s.send i r).mport.waitingOwners) :=
    (List.perm_cons_erase hr).map Request.owner
  have ho : (s.send i r).mport.outstandingOwners = s.mport.outstandingOwners ++ [r.owner] := by
    simp [State.send, MPort.outstandingOwners]
  have hboth : ((s.send i r).mport.waitingOwners ++ (s.send i r).mport.outstandingOwners).Perm
      (s.mport.waitingOwners ++ s.mport.outstandingOwners) := by
    rw [ho, ← List.append_assoc]
    refine (List.perm_append_singleton _ _).trans ?_
    exact hw.symm.append_right _
  obtain ⟨⟨h1, h2, h3, h4, h5⟩, h6⟩ := h
  have hwaq : (s.send i r).waq = s.waq := rfl
  have hcap := (hboth.filterMap Owner.captureKey?).trans h4
  have hready := (hw.filterMap Owner.waqKey?).symm.trans h2
  unfold State.issue
  split
  case h_1 q g hown =>
    rw [hown] at hready ho
    have hmem : (q, g) ∈ keysIn s.waq .ready := hready.subset (by simp)
    obtain ⟨e, he, hs, hk⟩ := mem_keysIn.mp hmem
    have hne : e.state ≠ .issued := by rw [hs]; decide
    refine State.Tracks.advance ⟨?_, ?_, ?_, ?_, ?_⟩ <;> rw [State.setWaqState_eq, hwaq]
    · rw [keys_setState]
      exact h1
    · have old := hs ▸ keysIn_setState_old h1 he hk hne
      exact (hready.trans old).cons_inv
    · refine List.Perm.trans ?_ ((h3.cons (q, g)).trans (keysIn_setState_new h1 he hk hne).symm)
      rw [List.nil_append, State.setWaqState_mport, ho, List.filterMap_append]
      exact List.perm_append_singleton _ _
    · rw [keysIn_setState_other h1 he hk (by rw [hs]; decide) (by decide)]
      exact hcap
    · exact writes_setState h5 fun _ _ _ => by simp
  case h_2 hown =>
    have hnone : r.owner.waqKey? = none := by
      cases ho : r.owner
      case waq q g => exact absurd ho (hown q g)
      all_goals rfl
    refine ⟨⟨h1, ?_, ?_, hcap, h5⟩, h6⟩
    · rwa [List.filterMap_cons_none hnone] at hready
    · rw [List.nil_append, ho, List.filterMap_append, List.filterMap_cons_none hnone]
      simpa using h3

/-! ### A transaction enters -/

/-- A transaction whose tag is free joins the WAQ, and the heads are decided (R38, R59). -/
theorem linked_enterWaq (hfit : s.tagInUse t.requester t.tag = false) (h : s.Linked []) :
    (s.enterWaq t).Linked [] := by
  have hnew : (t.requester, t.tag) ∉ s.waq.map WaqEntry.key := by
    intro hm
    obtain ⟨e, he, hk⟩ := List.mem_map.mp hm
    have := (Bool.or_eq_false_iff.mp (Bool.or_eq_false_iff.mp hfit).1).1
    exact absurd ((e.keyIs_iff _ _).mpr hk) (by simpa using List.any_eq_false.mp this e he)
  have hfirst : s.firstState t = .parked ∧ t.kind = .write ∨ s.firstState t = .waiting := by
    unfold State.firstState
    split
    case isTrue hp => exact .inl ⟨rfl, hp.1⟩
    case isFalse => exact .inr rfl
  have hkeys (st : WaqState) (hst : st = .ready ∨ st = .issued ∨ st = .capturing) :
      keysIn (s.waq ++ [⟨t, s.firstState t, false, false⟩]) st = keysIn s.waq st := by
    rw [keysIn_append, keysIn_cons, if_neg, keysIn_nil, List.append_nil]
    rcases hfirst with ⟨hf, -⟩ | hf <;> rcases hst with rfl | rfl | rfl <;> simp [hf]
  obtain ⟨h1, h2, h3, h4, h5⟩ := h.1
  unfold State.enterWaq
  refine State.Tracks.advance ⟨?_, ?_, ?_, ?_, ?_⟩
  · rw [List.map_append, List.map_cons, List.map_nil]
    exact (List.perm_append_singleton _ _).nodup_iff.mpr (List.nodup_cons.mpr ⟨hnew, h1⟩)
  · exact (hkeys _ (.inl rfl)).symm ▸ h2
  · exact (hkeys _ (.inr (.inl rfl))).symm ▸ h3
  · exact (hkeys _ (.inr (.inr rfl))).symm ▸ h4
  · intro e he hst
    rcases List.mem_append.mp he with he | he
    · exact h5 e he hst
    · rw [List.mem_singleton.mp he] at hst ⊢
      rcases hfirst with ⟨-, hk⟩ | hf
      · exact hk
      · simp [hf] at hst

theorem linked_routeTransaction (hfit : s.tagInUse t.requester t.tag = false) (h : s.Linked []) :
    (s.routeTransaction t).Linked [] := by
  unfold State.routeTransaction
  split
  · exact linked_enterWaq hfit h
  · split
    · exact linked_enterWaq hfit h
    · exact linked_join h ⟨rfl, rfl⟩

/-! ### The steps -/

section

variable (h : s.Linked [])

include h

theorem linked_acceptTransaction : (s.acceptTransaction t).Linked [] := by
  unfold State.acceptTransaction
  split
  · exact h
  · split
    · exact h.frame rfl rfl
    case isFalse hfit =>
      have hfree : s.tagInUse t.requester t.tag = false := by
        simp only [State.transactionFits, Bool.not_eq_true', Bool.not_eq_false, Bool.and_eq_true] at hfit
        exact hfit.2
      split
      · exact h.frame rfl rfl
      · exact h
      · exact linked_closeStep (linked_routeTransaction hfree h)
      · exact linked_closeStep (linked_routeTransaction hfree h)

theorem linked_grant : (s.grant i tie).Linked [] := by
  unfold State.grant
  split
  case isFalse => exact h
  case isTrue =>
    split
    case h_1 => exact h
    case h_2 r hr => exact linked_closeStep (linked_issue (MPort.choice_mem hr) h)

theorem linked_freeIdent : (s.freeIdent i).Linked [] := h.congr rfl (.of_eq rfl rfl)

theorem linked_portAnswer (hn : (s.mport.outstanding.map (·.ident)).Nodup) : (s.portAnswer i a).Linked [] := by
  unfold State.portAnswer
  split
  case h_1 r hr => exact linked_closeStep (linked_ownerActs (linked_freeRequest hn hr h))
  case h_2 => exact linked_freeIdent h

theorem linked_timeOut (hn : (s.mport.outstanding.map (·.ident)).Nodup) : (s.timeOut i).Linked [] := by
  unfold State.timeOut
  split
  case h_1 r hr =>
    exact linked_closeStep (linked_ownerActs ((linked_freeRequest hn hr h).congr rfl (.of_eq rfl rfl)))
  case h_2 => exact h

theorem linked_epochTimerExpiry : s.epochTimerExpiry.Linked [] := by
  unfold State.epochTimerExpiry
  split
  case h_2 => exact h
  case h_3 => exact h
  case h_1 =>
    unfold State.timerExpires
    split
    · exact h.frame rfl rfl
    · split
      · exact h.frame rfl rfl
      · exact linked_requestSeal (h.frame rfl rfl)

theorem linked_gatherEnds : s.gatherEnds.Linked [] := by
  unfold State.gatherEnds
  split
  · exact h
  · split
    · split
      · apply linked_closeStep
        split
        · exact linked_commit h
        · exact linked_limitEnd h
      · exact h
    · split
      · exact linked_closeStep (linked_discard h)
      · exact h
    · exact h
    · exact h

theorem linked_drainEnds : s.drainEnds.Linked [] := by
  unfold State.drainEnds
  split
  · split
    · apply linked_closeStep
      split
      · exact linked_settle h
      · exact linked_beginRecord (h.frame rfl rfl)
    · exact h
  · exact h

theorem linked_displace : s.displace.Linked [] := by
  unfold State.displace
  split
  · exact h
  · split
    · exact linked_preemptGather h
    · exact linked_preemptGather h
    · exact linked_stopScan h
    · exact linked_completeIf h

theorem linked_startFenceTimer : s.startFenceTimer.Linked [] := h.frame rfl rfl

theorem linked_fenceNoCheckpoint : s.fenceNoCheckpoint.Linked [] := by
  unfold State.fenceNoCheckpoint
  exact linked_startFenceTimer (h.enterFence.frame rfl rfl)

theorem linked_startFaultRollback : (s.startFaultRollback c).Linked [] := by
  have drain : (s.enterDrain .fault .fault c false false).Linked [] := h.frame rfl rfl
  exact drain.enterFence.frame rfl rfl

theorem linked_faultJournaling : s.faultJournaling.Linked [] := by
  unfold State.faultJournaling State.reportFault
  dsimp only
  split
  · exact State.Linked.enterFence (h.frame rfl rfl)
  · split
    · exact linked_fenceNoCheckpoint (h.frame rfl rfl)
    · exact linked_startFaultRollback (linked_displace (h.frame rfl rfl))

theorem linked_faultRises : s.faultRises.Linked [] := by
  unfold State.faultRises State.dispatchFault State.reportFault
  dsimp only
  split
  · exact h
  · split
    · split
      · exact linked_startFenceTimer (State.Linked.enterFence (h.frame rfl rfl))
      · exact linked_faultJournaling (h.frame rfl rfl)
      · exact h.frame rfl rfl
    · exact h.frame rfl rfl

theorem linked_faultFalls : s.faultFalls.Linked [] := by
  unfold State.faultFalls
  split
  · exact linked_examineRelease (h.frame rfl rfl)
  · exact h

theorem linked_fenceTimerExpires : s.fenceTimerExpires.Linked [] := by
  unfold State.fenceTimerExpires
  split
  · exact h
  · exact linked_examineRelease (h.frame (by simp) (by simp))

theorem linked_honourAbort : s.honourAbort.Linked [] := by
  unfold State.honourAbort
  split
  · exact h
  · split <;> split
    · exact linked_closeStep (linked_abortGather h)
    · exact h
    · exact linked_closeStep (linked_abortGather h)
    · exact h
    · exact linked_closeStep (linked_abortDrain h)
    · exact h
    · exact linked_freeSlot (linked_stopScan h)
    · exact h

theorem linked_abortWritten : s.abortWritten.Linked [] := by
  unfold State.abortWritten
  split
  · exact h
  · split
    · exact h
    · exact linked_honourAbort (h.frame rfl rfl)

theorem linked_writeTimerCtl : (s.writeTimerCtl bytes).Linked [] := by
  unfold State.writeTimerCtl
  dsimp only
  split
  · exact linked_requestSeal (h.frame rfl rfl)
  · exact h.frame rfl rfl

/-! ### The mailbox's commands -/

theorem linked_taken : (s.taken code).Linked [] := h.frame rfl rfl

theorem linked_reject : (s.reject why).Linked [] := linked_complete h

theorem linked_busy : s.busy.Linked [] := linked_complete h

theorem linked_setJournal : s.setJournal.Linked [] := by
  unfold State.setJournal
  split
  · dsimp only
    split
    · exact linked_reject h
    · exact h.frame rfl rfl
  · exact linked_reject h

theorem linked_setRegion : s.setRegion.Linked [] := by
  unfold State.setRegion
  dsimp only
  split
  · exact linked_complete h
  · rw [State.copyIfIdle_eq]
    exact h.frame rfl rfl

theorem linked_setPolicy : s.setPolicy.Linked [] := by
  unfold State.setPolicy
  dsimp only
  split
  · exact linked_complete h
  · rw [State.copyIfIdle_eq]
    exact h.frame rfl rfl

theorem linked_startJournaling : s.startJournaling.Linked [] := by
  unfold State.startJournaling
  split
  · exact linked_reject h
  · exact linked_reject h
  · split
    · refine linked_closeStep (linked_complete (linked_epochOpen (h.frame ?_ ?_))) <;> rfl
    · exact linked_reject h

theorem linked_stopJournaling : s.stopJournaling.Linked [] := by
  unfold State.stopJournaling
  split
  · exact linked_complete h
  · exact linked_reject h
  · split
    · exact linked_startGather h
    · exact linked_busy h

theorem linked_sealEpoch : s.sealEpoch.Linked [] := by
  unfold State.sealEpoch
  split
  · exact linked_reject h
  · exact linked_reject h
  · split
    · exact linked_startGather h
    · split
      case h_1 => exact h.frame rfl rfl
      all_goals exact linked_busy h

theorem linked_startCommandRollback : (s.startCommandRollback c).Linked [] := by
  unfold State.startCommandRollback
  dsimp only
  split
  · exact h.frame rfl rfl
  · exact h.frame rfl rfl

theorem linked_rollbackTo : s.rollbackTo.Linked [] := by
  unfold State.rollbackTo
  split
  · exact linked_reject h
  · exact linked_reject h
  · split
    · split
      · exact linked_reject h
      · split
        · exact linked_reject h
        · exact linked_reject h
        · unfold State.requestRollback
          split
          · exact linked_startCommandRollback h
          · split
            · exact linked_startCommandRollback (linked_preemptGather h)
            all_goals exact linked_busy h
    · exact linked_reject h

theorem linked_verifyJournal : s.verifyJournal.Linked [] := by
  unfold State.verifyJournal
  split
  · exact linked_reject h
  · exact linked_reject h
  · split
    · exact linked_closeStep (linked_scanOn (h.frame rfl rfl))
    · exact linked_busy h

theorem linked_releaseFence : s.releaseFence.Linked [] := by
  unfold State.releaseFence
  split
  · exact linked_reject h
  · dsimp only
    split
    · exact linked_complete (h.frame (by simp) (by simp))
    · exact linked_complete h

theorem linked_recoverPart : s.recoverPart.Linked [] := by
  unfold State.recoverPart
  split
  · exact linked_reject h
  · exact linked_reject h
  · exact linked_complete (linked_examineRelease (h.frame rfl rfl))

theorem linked_readRecordAt : s.readRecordAt.Linked [] := by
  unfold State.readRecordAt
  split
  · exact linked_reject h
  · dsimp only
    split
    · exact linked_closeStep (linked_joinRecordReads (h.frame rfl rfl) ⟨rfl, rfl⟩ ⟨rfl, rfl⟩)
    · exact linked_reject h

theorem linked_tick (pending : List Instr) : State.Linked [] { s.countTick with pending := pending } := by
  refine h.congr rfl ⟨rfl, rfl, ?_, ?_⟩
  · simp only [MPort.outstandingOwners, State.countTick, List.map_map]
    rfl
  · simp only [MPort.outstandingOwners, State.countTick, List.map_map]
    rfl

end

end Steps

/-- The requests, and the identifiers they need to be told apart by. -/
def State.LinkedOk (s : State) : Prop := s.Linked [] ∧ (s.mport.outstanding.map (·.ident)).Nodup

theorem State.LinkedOk.frame {s t : State} (h : s.LinkedOk) (hw : t.waq = s.waq) (hm : t.mport = s.mport) :
    t.LinkedOk := ⟨h.1.frame hw hm, hm ▸ h.2⟩

/-- What each command does to the requests. -/
theorem linked_stepKeeps : StepKeeps State.LinkedOk (State.Linked []) where
  keep h := h.1
  pending _ h := h.frame rfl rfl
  select _ _ h := h.frame rfl rfl
  tick p h := linked_tick h.1 p
  reset _ _ _ _ := (State.requestsOk_iff.mp State.reset_requestsOk).frame rfl rfl
  phase _ h := h.1.frame rfl rfl
  endReset _ _ _ _ h := h.1.frame rfl rfl
  acceptTransaction _ h := linked_acceptTransaction h.1
  grant _ _ h := linked_grant h.1
  portAnswer _ _ h := linked_portAnswer h.1 h.2
  timeOut _ h := linked_timeOut h.1 h.2
  freeIdent _ h := linked_freeIdent h.1
  epochTimerExpiry h := linked_epochTimerExpiry h.1
  gatherEnds h := linked_gatherEnds h.1
  drainEnds h := linked_drainEnds h.1
  faultRises h := linked_faultRises h.1
  faultFalls h := linked_faultFalls h.1
  fenceTimerExpires h := linked_fenceTimerExpires h.1
  refuseCommand _ h := h.1.frame rfl rfl
  setJournal h _ _ := linked_setJournal (linked_taken h.1)
  setRegion h _ _ := linked_setRegion (linked_taken h.1)
  setPolicy h _ _ := linked_setPolicy (linked_taken h.1)
  startJournaling h _ _ := linked_startJournaling (linked_taken h.1)
  stopJournaling h _ _ := linked_stopJournaling (linked_taken h.1)
  sealEpoch h _ _ := linked_sealEpoch (linked_taken h.1)
  rollbackTo h _ _ := linked_rollbackTo (linked_taken h.1)
  verifyJournal h _ _ := linked_verifyJournal (linked_taken h.1)
  releaseFence h _ _ := linked_releaseFence (linked_taken h.1)
  recoverPart h _ _ := linked_recoverPart (linked_taken h.1)
  readTable h _ _ := linked_complete (linked_taken h.1)
  readRecordAt h _ _ := linked_readRecordAt (linked_taken h.1)
  rejectCode h _ _ := linked_reject (linked_taken h.1)
  abortWritten h := linked_abortWritten h.1
  writeTimerCtl _ h := linked_writeTimerCtl h.1
  writeEventAck _ h := h.1.frame rfl rfl
  writeAlertMask _ h := h.1.frame rfl rfl
  writeParam _ h := h.1.frame rfl rfl

/-- Settles O59: every operation keeps the requests linked to the entries (`State.Linked`) and the heads
decided, and `StepKeeps` runs through the commands. -/
theorem everyStepKeepsTheRequests : Obligations.EveryStepKeepsTheRequests := by
  intro s t hres hreq ht
  exact State.requestsOk_iff.mpr (linked_stepKeeps.step
    ⟨State.requestsOk_iff.mp hreq, hres.outstanding_nodup⟩ ht)

end Sys2Proof.Machine
end

section
/-! PROOFS. The Checkpoint Table as R4 and R5 have it, and what COMMIT, SETTLE, drops, LOST and DAMAGED marks
and REPEAT counts make of it. -/

namespace Sys2Proof.Machine

set_option Elab.async false

namespace TableOk

variable {depth counter tail head : Nat} {old t : List Checkpoint} {c : Checkpoint}

/-- The table with its newest entry set apart. -/
theorem snoc_iff : TableOk depth counter tail head (old ++ [c]) ↔
    old.length + 1 ≤ depth ∧ (c.state = .stillOpen ∧ c.epoch = counter ∧ c.start ≤ head) ∧
      (∀ x ∈ old, x.state = .committed) ∧ (old ++ [c]).Pairwise (fun x y => x.epoch < y.epoch) ∧
      (old ++ [c]).Pairwise (fun x y => x.start ≤ y.start) ∧
      (old ++ [c]).head?.any (fun x => x.start == tail) = true := by
  constructor
  · rintro ⟨h1, h2, h3, h4, h5, h6⟩
    refine ⟨by simpa using h1, ?_, by simpa using h3, h4, h5, h6⟩
    simpa [and_assoc] using h2
  · rintro ⟨h1, h2, h3, h4, h5, h6⟩
    refine ⟨by simpa using h1, ?_, by simpa using h3, h4, h5, h6⟩
    simpa [and_assoc] using h2

theorem exists_snoc (h : TableOk depth counter tail head t) : ∃ old c, t = old ++ [c] := by
  cases hl : t.getLast? with
  | none => exact absurd h.newest (by simp [hl])
  | some c =>
    obtain ⟨old, rfl⟩ := List.getLast?_eq_some_iff.mp hl
    exact ⟨old, c, rfl⟩

theorem mono_head (h : TableOk depth counter tail head t) {head' : Nat} (hh : head ≤ head') :
    TableOk depth counter tail head' t := by
  obtain ⟨old, c, rfl⟩ := h.exists_snoc
  obtain ⟨h1, ⟨hs, he, hst⟩, h3⟩ := snoc_iff.mp h
  exact snoc_iff.mpr ⟨h1, ⟨hs, he, hst.trans hh⟩, h3⟩

/-- No entry starts below tail (R4). -/
theorem tail_le (h : TableOk depth counter tail head t) (hc : c ∈ t) : tail ≤ c.start := by
  cases t with
  | nil => exact nomatch hc
  | cons a rest =>
    have ha : a.start = tail := by simpa using h.oldest
    rcases List.mem_cons.mp hc with rfl | hc
    · exact ha.symm.le
    · exact ha.symm.le.trans ((List.pairwise_cons.mp h.starts).1 c hc)

/-- Entries are told apart by their epochs (R4). -/
theorem eq_of_epoch (h : TableOk depth counter tail head t) {x y : Checkpoint} (hx : x ∈ t) (hy : y ∈ t)
    (he : x.epoch = y.epoch) : x = y := by
  have hn : (t.map (·.epoch)).Nodup :=
    (List.pairwise_map.mpr h.epochs).imp fun hlt => Nat.ne_of_lt hlt
  exact List.inj_on_of_nodup_map hn hx hy he

theorem start_le (h : TableOk depth counter tail head t) (hc : c ∈ t) : c.start ≤ head := by
  obtain ⟨old, d, rfl⟩ := h.exists_snoc
  obtain ⟨-, ⟨-, -, hst⟩, -, -, hstarts, -⟩ := snoc_iff.mp h
  rcases List.mem_append.mp hc with hc | hc
  · exact ((List.pairwise_append.mp hstarts).2.2 c hc d (List.mem_singleton_self d)).trans hst
  · rwa [List.mem_singleton.mp hc]

theorem epoch_le (h : TableOk depth counter tail head t) (hc : c ∈ t) : c.epoch ≤ counter := by
  obtain ⟨old, d, rfl⟩ := h.exists_snoc
  obtain ⟨-, ⟨-, he, -⟩, -, hepochs, -, -⟩ := snoc_iff.mp h
  rcases List.mem_append.mp hc with hc | hc
  · exact he ▸ ((List.pairwise_append.mp hepochs).2.2 c hc d (List.mem_singleton_self d)).le
  · rw [List.mem_singleton.mp hc, he]

/-- Marks and counts that leave epoch, start and state. -/
theorem map (h : TableOk depth counter tail head t) {f : Checkpoint → Checkpoint}
    (he : ∀ c, (f c).epoch = c.epoch) (hs : ∀ c, (f c).start = c.start) (hst : ∀ c, (f c).state = c.state) :
    TableOk depth counter tail head (t.map f) := by
  obtain ⟨old, c, rfl⟩ := h.exists_snoc
  obtain ⟨h1, h2, h3, h4, h5, h6⟩ := snoc_iff.mp h
  rw [List.map_append, List.map_singleton, snoc_iff, ← List.map_singleton, ← List.map_append]
  refine ⟨by simpa using h1, ?_, ?_, ?_, ?_, ?_⟩
  · rw [he, hs, hst]
    exact h2
  · intro x hx
    obtain ⟨y, hy, rfl⟩ := List.mem_map.mp hx
    rw [hst]
    exact h3 y hy
  · exact List.pairwise_map.mpr (h4.imp fun hlt => by rwa [he, he])
  · exact List.pairwise_map.mpr (h5.imp fun hle => by rwa [hs, hs])
  · cases old <;> simpa [hs] using h6

/-- A count in the newest entry alone. -/
theorem modifyOpen (h : TableOk depth counter tail head t) {f : Checkpoint → Checkpoint}
    (he : ∀ c, (f c).epoch = c.epoch) (hs : ∀ c, (f c).start = c.start) (hst : ∀ c, (f c).state = c.state) :
    TableOk depth counter tail head (modifyOpen f t) := by
  obtain ⟨old, c, rfl⟩ := h.exists_snoc
  obtain ⟨h1, h2, h3, h4, h5, h6⟩ := snoc_iff.mp h
  have hm : Machine.modifyOpen f (old ++ [c]) = old ++ [f c] := by simp [Machine.modifyOpen]
  rw [hm, snoc_iff]
  rw [List.pairwise_append] at h4 h5
  refine ⟨h1, by rw [he, hs, hst]; exact h2, h3, ?_, ?_, ?_⟩
  · refine List.pairwise_append.mpr ⟨h4.1, List.pairwise_singleton _ _, fun x hx y hy => ?_⟩
    rw [List.mem_singleton.mp hy, he]
    exact h4.2.2 x hx c (List.mem_singleton_self c)
  · refine List.pairwise_append.mpr ⟨h5.1, List.pairwise_singleton _ _, fun x hx y hy => ?_⟩
    rw [List.mem_singleton.mp hy, hs]
    exact h5.2.2 x hx c (List.mem_singleton_self c)
  · cases old <;> simpa [hs] using h6

/-- The oldest of several entries is dropped, and tail follows (R32). -/
theorem drop {d : Checkpoint} (h : TableOk depth counter tail head (c :: d :: t)) :
    TableOk depth counter d.start head (d :: t) := by
  obtain ⟨h1, h2, h3, h4, h5, -⟩ := h
  refine ⟨Nat.le_of_succ_le h1, by simpa using h2, fun x hx => h3 x ?_, h4.of_cons, h5.of_cons, by simp⟩
  exact List.mem_cons_of_mem _ hx

/-- Entries that are left of a table, with a new OPEN entry at `start` behind them. -/
theorem grow {kept : List Checkpoint} {epoch start tail' : Nat} {src : Source}
    (hlen : kept.length + 1 ≤ depth) (hc : ∀ x ∈ kept, x.state = .committed)
    (he : kept.Pairwise fun x y => x.epoch < y.epoch) (hs : kept.Pairwise fun x y => x.start ≤ y.start)
    (hle : ∀ x ∈ kept, x.epoch < epoch) (hls : ∀ x ∈ kept, x.start ≤ start)
    (ho : (kept ++ [newEntry epoch start src]).head?.any (fun x => x.start == tail') = true) :
    TableOk depth epoch tail' start (kept ++ [newEntry epoch start src]) := by
  refine snoc_iff.mpr ⟨hlen, ⟨rfl, rfl, le_rfl⟩, hc, ?_, ?_, ho⟩
  · exact List.pairwise_append.mpr ⟨he, List.pairwise_singleton _ _, fun x hx y hy => by
      rw [List.mem_singleton.mp hy]
      exact hle x hx⟩
  · exact List.pairwise_append.mpr ⟨hs, List.pairwise_singleton _ _, fun x hx y hy => by
      rw [List.mem_singleton.mp hy]
      exact hls x hx⟩

/-- The entries that COMMIT keeps: those not LOST, the newest of them up to the depth (R13). -/
def committed (depth : Nat) (t : List Checkpoint) : List Checkpoint :=
  let kept := (Machine.modifyOpen (fun c => { c with state := .committed }) t).filter fun c => c.condition != .lost
  kept.drop (kept.length + 1 - depth)

theorem commitTable_eq (hd : 1 ≤ depth) (epoch start : Nat) (src : Source) (t : List Checkpoint) :
    commitTable depth epoch start src t = committed depth t ++ [newEntry epoch start src] := by
  unfold commitTable committed
  dsimp only
  rw [List.length_append, List.length_singleton, List.drop_append_of_le_length (by omega)]

/-- COMMIT leaves a table as R4 and R5 have it (R13). -/
theorem commit (h : TableOk depth counter tail head t) (hd : 1 ≤ depth) (src : Source) :
    TableOk depth (counter + 1) (oldestStart head (commitTable depth (counter + 1) head src t)) head
      (commitTable depth (counter + 1) head src t) := by
  obtain ⟨old, c, rfl⟩ := h.exists_snoc
  have hsub : (committed depth (old ++ [c])).Sublist (old ++ [{ c with state := .committed }]) := by
    have : Machine.modifyOpen (fun c => { c with state := .committed }) (old ++ [c]) =
        old ++ [{ c with state := .committed }] := by simp [Machine.modifyOpen]
    unfold committed
    rw [this]
    exact (List.drop_sublist _ _).trans List.filter_sublist
  obtain ⟨-, ⟨-, hec, hsc⟩, hold, hep, hst, -⟩ := snoc_iff.mp h
  rw [List.pairwise_append] at hep hst
  have hep' : (old ++ [{ c with state := .committed }]).Pairwise fun (x y : Checkpoint) => x.epoch < y.epoch :=
    List.pairwise_append.mpr ⟨hep.1, List.pairwise_singleton _ _, fun x hx y hy => by
      rw [List.mem_singleton.mp hy]
      exact hep.2.2 x hx c (List.mem_singleton_self c)⟩
  have hst' : (old ++ [{ c with state := .committed }]).Pairwise fun (x y : Checkpoint) => x.start ≤ y.start :=
    List.pairwise_append.mpr ⟨hst.1, List.pairwise_singleton _ _, fun x hx y hy => by
      rw [List.mem_singleton.mp hy]
      exact hst.2.2 x hx c (List.mem_singleton_self c)⟩
  have hmem : ∀ x ∈ committed depth (old ++ [c]),
      x.state = .committed ∧ x.epoch < counter + 1 ∧ x.start ≤ head := by
    intro x hx
    rcases List.mem_append.mp (hsub.subset hx) with hx | hx
    · refine ⟨hold x hx, ?_, ?_⟩
      · have := hep.2.2 x hx c (List.mem_singleton_self c)
        omega
      · exact (hst.2.2 x hx c (List.mem_singleton_self c)).trans hsc
    · rw [List.mem_singleton.mp hx]
      exact ⟨rfl, Nat.lt_succ_of_le hec.le, hsc⟩
  rw [commitTable_eq hd]
  refine grow ?_ (fun x hx => (hmem x hx).1) (hep'.sublist hsub) (hst'.sublist hsub)
    (fun x hx => (hmem x hx).2.1) (fun x hx => (hmem x hx).2.2) ?_
  · unfold committed
    dsimp only
    rw [List.length_drop]
    omega
  · cases committed depth (old ++ [c]) <;> simp [oldestStart]

/-- The entries before the target, which are all COMMITTED. -/
theorem split_target (h : TableOk depth counter tail head t) (hc : c ∈ t) :
    ∃ newer, t = t.takeWhile (fun x => x.epoch != c.epoch) ++ c :: newer := by
  have hd : (t.dropWhile fun x => x.epoch != c.epoch) ≠ [] := by
    intro hnil
    have := List.dropWhile_eq_nil_iff.mp hnil c hc
    simp at this
  obtain ⟨y, newer, hy⟩ := List.exists_cons_of_ne_nil hd
  have hsplit : t = t.takeWhile (fun x => x.epoch != c.epoch) ++ y :: newer := by
    rw [← hy, List.takeWhile_append_dropWhile]
  have hye : y.epoch = c.epoch := by
    have := List.head_dropWhile_not (fun x : Checkpoint => x.epoch != c.epoch) hd
    simpa [hy] using this
  have hyt : y ∈ t := by
    rw [hsplit]
    simp
  rw [h.eq_of_epoch hyt hc hye] at hsplit
  exact ⟨newer, hsplit⟩

/-- SETTLE leaves a table as R4 and R5 have it, with tail where it was (R127). -/
theorem settle (h : TableOk depth counter tail head t) (hc : c ∈ t) :
    TableOk depth (counter + 1) tail c.start (settleTable c.epoch (counter + 1) c.start t) := by
  obtain ⟨newer, hsplit⟩ := h.split_target hc
  unfold settleTable
  generalize hk : t.takeWhile (fun x => x.epoch != c.epoch) = kept at hsplit ⊢
  have hmem : ∀ x ∈ kept, x ∈ t := fun x hx => by
    rw [hsplit]
    exact List.mem_append_left _ hx
  have hep := h.epochs
  have hst := h.starts
  rw [hsplit, List.pairwise_append] at hep hst
  refine grow ?_ ?_ hep.1 hst.1 (fun x hx => Nat.lt_succ_of_le (h.epoch_le (hmem x hx)))
    (fun x hx => hst.2.2 x hx c (List.mem_cons_self ..)) ?_
  · have := h.bounded
    rw [hsplit, List.length_append, List.length_cons] at this
    omega
  · intro x hx
    refine h.older x ?_
    rw [hsplit, List.dropLast_append_of_ne_nil (List.cons_ne_nil _ _)]
    exact List.mem_append_left _ hx
  · have := h.oldest
    rw [hsplit] at this
    cases kept <;> simpa [newEntry] using this

end TableOk

end Sys2Proof.Machine
end

section
/-! PROOFS. What the Capture Buffer holds, reads and records, and what its operations make of both. -/

namespace Sys2Proof.Machine

set_option Elab.async false

/-! ### Records held and captures read -/

/-- The causing writes of the entries that are READING. -/
def readingKeys (captures : List CaptureEntry) : List (BitVec 4 × BitVec 6) :=
  captures.filterMap CaptureEntry.readingKey?

/-- The position of the record an entry holds. -/
def CaptureEntry.position? (c : CaptureEntry) : Option Nat := c.state.record?.map (·.position)

theorem recordsHeld_eq (captures : List CaptureEntry) :
    recordsHeld captures = captures.filterMap CaptureEntry.position? := by
  simp only [recordsHeld, List.map_filterMap]
  rfl

theorem CaptureEntry.holds_iff (c : CaptureEntry) (p : Nat) : c.holds p = true ↔ c.position? = some p := by
  unfold CaptureEntry.holds CaptureEntry.position?
  cases c.state.record? <;> simp

theorem CaptureEntry.reads_iff (c : CaptureEntry) (q : BitVec 4) (g : BitVec 6) :
    c.reads q g = true ↔ c.readingKey? = some (q, g) := by
  unfold CaptureEntry.reads CaptureEntry.readingKey?
  by_cases h : c.state = .reading <;> simp [h]

/-- An entry reads or holds a record, not both. -/
theorem CaptureEntry.position_of_reads {c : CaptureEntry} {q : BitVec 4} {g : BitVec 6}
    (h : c.reads q g = true) : c.position? = none := by
  have hs : c.state = .reading := by
    simp only [CaptureEntry.reads, Bool.and_eq_true, beq_iff_eq] at h
    exact h.2
  simp [CaptureEntry.position?, hs, CaptureState.record?]

theorem CaptureEntry.readingKey_of_holds {c : CaptureEntry} {p : Nat} (h : c.holds p = true) :
    c.readingKey? = none := by
  have hs : c.state ≠ .reading := fun hs => by
    simp [CaptureEntry.holds, hs, CaptureState.record?] at h
  simp [CaptureEntry.readingKey?, hs]

theorem recordsHeld_append (l r : List CaptureEntry) : recordsHeld (l ++ r) = recordsHeld l ++ recordsHeld r := by
  simp [recordsHeld]

theorem recordsHeld_cons (c : CaptureEntry) (l : List CaptureEntry) :
    recordsHeld (c :: l) = c.position?.toList ++ recordsHeld l := by
  rw [recordsHeld_eq, recordsHeld_eq, List.filterMap_cons]
  cases c.position? <;> rfl

theorem readingKeys_append (l r : List CaptureEntry) : readingKeys (l ++ r) = readingKeys l ++ readingKeys r := by
  simp [readingKeys]

theorem readingKeys_cons (c : CaptureEntry) (l : List CaptureEntry) :
    readingKeys (c :: l) = c.readingKey?.toList ++ readingKeys l := by
  rw [readingKeys, readingKeys, List.filterMap_cons]
  cases c.readingKey? <;> rfl

/-- The entries that do not hold the record of a position. -/
theorem captures_without_record (captures : List CaptureEntry) (p : Nat) :
    recordsHeld (captures.filter fun c => !c.holds p) = (recordsHeld captures).filter (· != p) ∧
      readingKeys (captures.filter fun c => !c.holds p) = readingKeys captures := by
  constructor
  · rw [recordsHeld_eq, recordsHeld_eq, List.filterMap_filter, List.filter_filterMap]
    refine List.filterMap_congr fun c _ => ?_
    cases hc : c.position? with
    | none => simp
    | some x =>
      by_cases hx : x = p
      · simp [(c.holds_iff p).mpr (hx ▸ hc), hx, Option.filter]
      · have : c.holds p = false := Bool.eq_false_iff.mpr fun h => by
          rw [c.holds_iff, hc] at h
          exact hx (Option.some.inj h)
        simp [this, hx, Option.filter]
  · rw [readingKeys, readingKeys, List.filterMap_filter]
    refine List.filterMap_congr fun c _ => ?_
    cases hc : c.holds p
    · rfl
    · simp [CaptureEntry.readingKey_of_holds hc]

/-- A record that goes on to another line of its writing stays held (R28). -/
theorem captures_writing (captures : List CaptureEntry) (r : Record) (line : RecordLine) (n : Nat) :
    recordsHeld (captures.map fun c => if c.holds r.position then { c with state := .writing r line n } else c) =
        recordsHeld captures ∧
      readingKeys (captures.map fun c => if c.holds r.position then { c with state := .writing r line n } else c) =
        readingKeys captures := by
  constructor
  · rw [recordsHeld_eq, recordsHeld_eq, List.filterMap_map]
    refine List.filterMap_congr fun c _ => ?_
    simp only [Function.comp_apply]
    split
    case isTrue hc => exact ((c.holds_iff _).mp hc).symm
    case isFalse => rfl
  · rw [readingKeys, readingKeys, List.filterMap_map]
    refine List.filterMap_congr fun c _ => ?_
    simp only [Function.comp_apply]
    split
    case isTrue hc => exact (CaptureEntry.readingKey_of_holds hc).symm
    case isFalse => rfl

/-- The Capture Buffer around the one entry that reads for a write. -/
theorem split_of_reading {captures : List CaptureEntry} {q : BitVec 4} {g : BitVec 6}
    (hn : (readingKeys captures).Nodup) (hm : (q, g) ∈ readingKeys captures) :
    ∃ l c r, captures = l ++ c :: r ∧ c.reads q g = true ∧
      (∀ x, x ∈ l ∨ x ∈ r → x.reads q g = false) := by
  obtain ⟨c, hc, hk⟩ := List.mem_filterMap.mp hm
  obtain ⟨l, r, rfl⟩ := List.append_of_mem hc
  refine ⟨l, c, r, rfl, (c.reads_iff q g).mpr hk, fun x hx => Bool.eq_false_iff.mpr fun hr => ?_⟩
  rw [readingKeys_append, readingKeys_cons, hk, Option.toList_some, List.singleton_append, List.nodup_middle,
    List.nodup_cons, ← readingKeys_append] at hn
  exact hn.1 (List.mem_filterMap.mpr ⟨x, List.mem_append.mpr hx, (x.reads_iff q g).mp hr⟩)

/-- The entry of an ended capture read is freed (R70), or holds the record from now on (R26). -/
theorem captures_read {captures : List CaptureEntry} {q : BitVec 4} {g : BitVec 6}
    (hn : (readingKeys captures).Nodup) (hm : (q, g) ∈ readingKeys captures) :
    ∃ rest, (readingKeys captures).Perm ((q, g) :: readingKeys rest) ∧ recordsHeld captures = recordsHeld rest ∧
      captures.filter (fun c => !c.reads q g) = rest ∧ ∀ rec : Record,
      (readingKeys (captures.map fun c => if c.reads q g then { c with state := .staged rec } else c) =
        readingKeys rest) ∧
      (recordsHeld (captures.map fun c => if c.reads q g then { c with state := .staged rec } else c)).Perm
        (rec.position :: recordsHeld rest) := by
  obtain ⟨l, c, r, rfl, hc, hother⟩ := split_of_reading hn hm
  have hkey : c.readingKey? = some (q, g) := (c.reads_iff q g).mp hc
  have keep : ∀ m : List CaptureEntry, (∀ x ∈ m, x.reads q g = false) →
      m.filter (fun c => !c.reads q g) = m ∧ ∀ rec : Record,
        (m.map fun c => if c.reads q g then { c with state := .staged rec } else c) = m := by
    intro m hm
    constructor
    · exact List.filter_eq_self.mpr fun x hx => by simp [hm x hx]
    · exact fun rec => (List.map_congr_left fun x hx => by simp [hm x hx]).trans (List.map_id _)
  obtain ⟨hfl, hml⟩ := keep l fun x hx => hother x (.inl hx)
  obtain ⟨hfr, hmr⟩ := keep r fun x hx => hother x (.inr hx)
  refine ⟨l ++ r, ?_, ?_, ?_, fun rec => ⟨?_, ?_⟩⟩
  · rw [readingKeys_append, readingKeys_append, readingKeys_cons, hkey]
    exact List.perm_middle
  · rw [recordsHeld_append, recordsHeld_append, recordsHeld_cons, CaptureEntry.position_of_reads hc]
    rfl
  · rw [List.filter_append, List.filter_cons_of_neg (by simp [hc]), hfl, hfr]
  · rw [List.map_append, List.map_cons, hml, hmr, if_pos hc, readingKeys_append, readingKeys_append,
      readingKeys_cons]
    rfl
  · rw [List.map_append, List.map_cons, hml, hmr, if_pos hc, recordsHeld_append, recordsHeld_append,
      recordsHeld_cons]
    exact List.perm_middle

/-! ### The ended marks -/

theorem insertPosition_perm {p : Nat} {xs : List Nat} (h : p ∉ xs) : (insertPosition p xs).Perm (p :: xs) := by
  induction xs with
  | nil => exact .refl _
  | cons x xs ih =>
    rw [List.mem_cons, not_or] at h
    unfold insertPosition
    rw [if_neg h.1]
    split
    · exact .refl _
    · exact ((ih h.2).cons x).trans (.swap _ _ _)

theorem passEnded_sublist (n : Nat) : ∀ (w : Nat) (ended : List Nat), ((passEnded n w ended).2).Sublist ended := by
  induction n with
  | zero => exact fun _ _ => .refl _
  | succ n ih =>
    intro w ended
    unfold passEnded
    split
    · exact (ih _ _).trans List.filter_sublist
    · exact .refl _

end Sys2Proof.Machine
end

section
/-! PROOFS. The journal positions, the table and the records being written: what the operations of the Epoch
Controller, the Journal Writer and the Rollback Engine make of them. -/

namespace Sys2Proof.Machine

set_option Elab.async false

/-- The positions, the table and the records being written, as `State.LedgerOk` has them. -/
structure State.PlacesOk (s : State) : Prop where
  positions : s.journal.tail ≤ s.journal.written ∧ s.journal.written ≤ s.journal.head ∧
    s.journal.head ≤ s.journal.tail + s.journal.capacity
  depth : 1 ≤ s.journal.depth ∧ s.journal.depth ≤ 4
  table : s.epoch.mode = .journaling → s.TableOk
  starts : ∀ c ∈ s.epoch.table, c.start ≤ s.journal.written
  passthrough : s.epoch.mode = .passthrough → s.journal.head = 0
  no_epoch : s.epoch.mode ≠ .journaling → s.epoch.table = []
  records_once : (recordsHeld s.captures ++ s.journal.ended).Nodup
  records_between : ∀ p ∈ recordsHeld s.captures ++ s.journal.ended,
    s.journal.written ≤ p ∧ p < s.journal.head

namespace State.PlacesOk

variable {s t : State} {c d : Checkpoint} {rest : List Checkpoint} {p : Nat} {src : Source}

theorem congr (h : s.PlacesOk) (hj : t.journal = s.journal) (he : t.epoch = s.epoch)
    (hr : recordsHeld t.captures = recordsHeld s.captures) : t.PlacesOk := by
  obtain ⟨h1, h2, h3, h4, h5, h6, h7, h8⟩ := h
  refine ⟨?_, ?_, ?_, ?_, ?_, ?_, ?_, ?_⟩ <;> simp only [State.TableOk, hj, he, hr]
  · exact h1
  · exact h2
  · exact h3
  · exact h4
  · exact h5
  · exact h6
  · exact h7
  · exact h8

/-- A table is a sign of JOURNALING. -/
theorem journaling_of_mem (h : s.PlacesOk) (hc : c ∈ s.epoch.table) : s.epoch.mode = .journaling := by
  by_contra hm
  rw [h.no_epoch hm] at hc
  exact nomatch hc

/-- Nothing is being written while written has reached head (R30). -/
theorem ended_nil (h : s.PlacesOk) (hw : s.journal.written = s.journal.head) : s.journal.ended = [] := by
  refine List.eq_nil_iff_forall_not_mem.mpr fun p hp => ?_
  have := h.records_between p (List.mem_append_right _ hp)
  omega

/-- Another table of the same epochs, with the positions as they are. -/
theorem withTable (h : s.PlacesOk) {table : List Checkpoint} (he : t.epoch = { s.epoch with table := table })
    (hj : t.journal = s.journal) (hr : recordsHeld t.captures = recordsHeld s.captures)
    (ht : s.epoch.mode = .journaling →
      Machine.TableOk s.journal.depth s.epoch.counter s.journal.tail s.journal.head table)
    (hst : ∀ c ∈ table, c.start ≤ s.journal.written) (hnil : s.epoch.table = [] → table = []) :
    t.PlacesOk := by
  obtain ⟨h1, h2, h3, h4, h5, h6, h7, h8⟩ := h
  refine ⟨?_, ?_, ?_, ?_, ?_, ?_, ?_, ?_⟩ <;> simp only [State.TableOk, hj, he, hr]
  · exact h1
  · exact h2
  · exact ht
  · exact hst
  · exact h5
  · exact fun hm => hnil (h6 hm)
  · exact h7
  · exact h8

/-- Marks on the entries leave the table as it should be (R7). -/
theorem markTable (h : s.PlacesOk) {f : Checkpoint → Checkpoint} (hfe : ∀ c, (f c).epoch = c.epoch)
    (hfs : ∀ c, (f c).start = c.start) (hfst : ∀ c, (f c).state = c.state)
    (he : t.epoch = { s.epoch with table := s.epoch.table.map f }) (hj : t.journal = s.journal)
    (hr : recordsHeld t.captures = recordsHeld s.captures) : t.PlacesOk := by
  refine h.withTable he hj hr (fun hm => (h.table hm).map hfe hfs hfst) (fun c hc => ?_) (fun hn => by simp [hn])
  obtain ⟨c', hc', rfl⟩ := List.mem_map.mp hc
  rw [hfs]
  exact h.starts c' hc'

/-- One drop (R32). -/
theorem drop (h : s.PlacesOk) (ht : s.epoch.table = c :: d :: rest)
    (he : t.epoch = { s.epoch with table := d :: rest })
    (hj : t.journal = { s.journal with tail := d.start })
    (hr : recordsHeld t.captures = recordsHeld s.captures) : t.PlacesOk := by
  have hm := h.journaling_of_mem (c := c) (ht ▸ List.mem_cons_self ..)
  have htab : Machine.TableOk s.journal.depth s.epoch.counter s.journal.tail s.journal.head (c :: d :: rest) :=
    ht ▸ h.table hm
  have htail : s.journal.tail ≤ d.start := htab.tail_le (List.mem_cons_of_mem _ (List.mem_cons_self ..))
  have hd : d.start ≤ s.journal.written := h.starts d (by rw [ht]; simp)
  obtain ⟨h1, h2, h3, h4, h5, h6, h7, h8⟩ := h
  refine ⟨?_, ?_, ?_, ?_, ?_, ?_, ?_, ?_⟩ <;> simp only [State.TableOk, hj, he, hr]
  · omega
  · exact h2
  · exact fun _ => htab.drop
  · exact fun x hx => h4 x (ht ▸ List.mem_cons_of_mem _ hx)
  · exact h5
  · exact fun hn => absurd hm hn
  · exact h7
  · exact h8

/-- A record is allocated at head (R26). -/
theorem allocate (h : s.PlacesOk) (hm : s.epoch.mode = .journaling)
    (hroom : s.journal.head < s.journal.tail + s.journal.capacity) {table : List Checkpoint}
    (htab : table = s.epoch.table ∨ table = countRepeat s.epoch.table)
    (he : t.epoch = { s.epoch with table := table })
    (hj : t.journal = { s.journal with head := s.journal.head + 1 })
    (hr : (recordsHeld t.captures).Perm (s.journal.head :: recordsHeld s.captures)) : t.PlacesOk := by
  have htable : Machine.TableOk s.journal.depth s.epoch.counter s.journal.tail (s.journal.head + 1) table := by
    have := (h.table hm).mono_head (Nat.le_succ s.journal.head)
    rcases htab with rfl | rfl
    · exact this
    · exact this.modifyOpen (fun _ => rfl) (fun _ => rfl) (fun _ => rfl)
  have hstarts : ∀ c ∈ table, c.start ≤ s.journal.written := by
    rcases htab with rfl | rfl
    · exact h.starts
    · obtain ⟨old, x, hx⟩ := (h.table hm).exists_snoc
      have := h.starts
      rw [hx] at this ⊢
      simpa [countRepeat, modifyOpen, or_imp, forall_and] using this
  have hperm : (recordsHeld t.captures ++ s.journal.ended).Perm
      (s.journal.head :: (recordsHeld s.captures ++ s.journal.ended)) := hr.append_right _
  obtain ⟨h1, h2, h3, h4, h5, h6, h7, h8⟩ := h
  refine ⟨?_, ?_, ?_, ?_, ?_, ?_, ?_, ?_⟩ <;> simp only [State.TableOk, hj, he]
  · omega
  · exact h2
  · exact fun _ => htable
  · exact hstarts
  · exact fun hp => absurd (hm.symm.trans hp) (by decide)
  · exact fun hn => absurd hm hn
  · refine hperm.nodup_iff.mpr (List.nodup_cons.mpr ⟨fun hmem => ?_, h7⟩)
    exact absurd (h8 _ hmem).2 (lt_irrefl _)
  · intro p hp
    rcases List.mem_cons.mp (hperm.subset hp) with rfl | hp
    · omega
    · have := h8 p hp
      omega

/-- The writing of the record at `p` ends (R30). -/
theorem endRecord (h : s.PlacesOk) (hp : p ∈ recordsHeld s.captures) (he : t.epoch = s.epoch)
    (hj : t.journal = { s.journal with
      written := (passEnded (insertPosition p s.journal.ended).length s.journal.written
        (insertPosition p s.journal.ended)).1
      ended := (passEnded (insertPosition p s.journal.ended).length s.journal.written
        (insertPosition p s.journal.ended)).2 })
    (hr : recordsHeld t.captures = (recordsHeld s.captures).filter (· != p)) : t.PlacesOk := by
  obtain ⟨h1, h2, h3, h4, h5, h6, h7, h8⟩ := h
  obtain ⟨hw, hpassed, hleft⟩ := passEnded_spec (insertPosition p s.journal.ended).length s.journal.written
    (insertPosition p s.journal.ended)
  have hsub := passEnded_sublist (insertPosition p s.journal.ended).length s.journal.written
    (insertPosition p s.journal.ended)
  generalize passEnded (insertPosition p s.journal.ended).length s.journal.written
    (insertPosition p s.journal.ended) = passed at hw hpassed hleft hsub hj
  have hmark : ∀ x, x ∈ insertPosition p s.journal.ended → s.journal.written ≤ x ∧ x < s.journal.head := by
    intro x hx
    rcases (mem_insertPosition p x _).mp hx with rfl | hx
    · exact h8 x (List.mem_append_left _ hp)
    · exact h8 x (List.mem_append_right _ hx)
  have hnotin : p ∉ s.journal.ended := fun hpe => (List.nodup_append.mp h7).2.2 p hp p hpe rfl
  have hall : ((recordsHeld s.captures).filter (· != p) ++ insertPosition p s.journal.ended).Nodup := by
    have hperm : (recordsHeld s.captures).Perm (p :: (recordsHeld s.captures).filter (· != p)) := by
      have := (List.perm_cons_erase hp)
      rwa [(List.nodup_append.mp h7).1.erase_eq_filter] at this
    refine (List.Perm.nodup_iff ?_).mp h7
    refine (hperm.append_right _).trans ?_
    exact List.perm_middle.symm.trans ((insertPosition_perm hnotin).symm.append_left _)
  have hwh : passed.1 ≤ s.journal.head := by
    by_contra hlt
    have := hmark (passed.1 - 1) (hpassed _ (by omega) (by omega))
    omega
  refine ⟨?_, ?_, ?_, ?_, ?_, ?_, ?_, ?_⟩ <;> simp only [State.TableOk, hj, he, hr]
  · omega
  · exact h2
  · exact h3
  · exact fun c hc => (h4 c hc).trans hw
  · exact h5
  · exact h6
  · exact hall.sublist (hsub.append_left _)
  · intro x hx
    rcases List.mem_append.mp hx with hx | hx
    · obtain ⟨hx', -⟩ := List.mem_filter.mp hx
      have hb := h8 x (List.mem_append_left _ hx')
      refine ⟨?_, hb.2⟩
      by_contra hlt
      exact (List.nodup_append.mp hall).2.2 x hx x (hpassed x hb.1 (by omega)) rfl
    · obtain ⟨hxm, hxn⟩ := (hleft x).mp hx
      have hb := hmark x hxm
      exact ⟨by omega, hb.2⟩

/-- COMMIT (R13, R14): everything allocated has been written. -/
theorem commit (h : s.PlacesOk) (hm : s.epoch.mode = .journaling) (hw : s.journal.written = s.journal.head)
    (he : t.epoch = { s.epoch with
      table := commitTable s.journal.depth (s.epoch.counter + 1) s.journal.head src s.epoch.table
      counter := s.epoch.counter + 1 })
    (hj : t.journal = { s.journal with
      tail := oldestStart s.journal.head
        (commitTable s.journal.depth (s.epoch.counter + 1) s.journal.head src s.epoch.table) })
    (hr : recordsHeld t.captures = recordsHeld s.captures) : t.PlacesOk := by
  have htab := (h.table hm).commit h.depth.1 src
  have hstart : ∀ c ∈ commitTable s.journal.depth (s.epoch.counter + 1) s.journal.head src s.epoch.table,
      s.journal.tail ≤ c.start ∧ c.start ≤ s.journal.head := by
    intro c hc
    refine ⟨?_, htab.start_le hc⟩
    rw [Machine.TableOk.commitTable_eq h.depth.1] at hc
    rcases List.mem_append.mp hc with hc | hc
    · have hc := List.mem_of_mem_filter (List.mem_of_mem_drop hc)
      obtain ⟨old, x, hx⟩ := (h.table hm).exists_snoc
      have hold : ∀ y ∈ old ++ [x], s.journal.tail ≤ y.start := fun y hy =>
        (h.table hm).tail_le (hx ▸ hy)
      rw [hx] at hc
      have : c ∈ old ++ [{ x with state := .committed }] := by simpa [modifyOpen] using hc
      rcases List.mem_append.mp this with hc | hc
      · exact hold c (List.mem_append_left _ hc)
      · rw [List.mem_singleton.mp hc]
        exact hold x (List.mem_append_right _ (List.mem_singleton_self x))
    · rw [List.mem_singleton.mp hc]
      have := h.positions
      simp only [newEntry]
      omega
  have htail : s.journal.tail ≤ oldestStart s.journal.head
        (commitTable s.journal.depth (s.epoch.counter + 1) s.journal.head src s.epoch.table) ∧
      oldestStart s.journal.head
        (commitTable s.journal.depth (s.epoch.counter + 1) s.journal.head src s.epoch.table) ≤ s.journal.head := by
    have hpos := h.positions
    unfold oldestStart
    cases hh : (commitTable s.journal.depth (s.epoch.counter + 1) s.journal.head src s.epoch.table).head? with
    | none =>
      simp only [Option.map_none, Option.getD_none]
      omega
    | some c => exact hstart c (List.mem_of_mem_head? hh)
  obtain ⟨h1, h2, h3, h4, h5, h6, h7, h8⟩ := h
  refine ⟨?_, ?_, ?_, ?_, ?_, ?_, ?_, ?_⟩ <;> simp only [State.TableOk, hj, he, hr]
  · omega
  · exact h2
  · exact fun _ => htab
  · exact fun c hc => hw ▸ (hstart c hc).2
  · exact h5
  · exact fun hn => absurd hm hn
  · exact h7
  · exact h8

/-- SETTLE (R127): nothing is being written. -/
theorem settle (h : s.PlacesOk) (hw : s.journal.written = s.journal.head) (hnone : recordsHeld s.captures = [])
    (hc : c ∈ s.epoch.table)
    (he : t.epoch = { s.epoch with
      table := settleTable c.epoch (s.epoch.counter + 1) c.start s.epoch.table
      counter := s.epoch.counter + 1 })
    (hj : t.journal = { s.journal with head := c.start, written := c.start })
    (hr : recordsHeld t.captures = recordsHeld s.captures) : t.PlacesOk := by
  have hm := h.journaling_of_mem hc
  have hended := h.ended_nil hw
  have htail := (h.table hm).tail_le hc
  have hle := h.starts c hc
  have htab := (h.table hm).settle hc
  obtain ⟨h1, h2, h3, h4, h5, h6, h7, h8⟩ := h
  refine ⟨?_, ?_, ?_, ?_, ?_, ?_, ?_, ?_⟩ <;> simp only [State.TableOk, hj, he, hr, hnone, hended]
  · omega
  · exact h2
  · exact fun _ => htab
  · exact fun x hx => htab.start_le hx
  · exact fun hp => absurd (hm.symm.trans hp) (by decide)
  · exact fun hn => absurd hm hn
  · simp
  · simp

/-- The part leaves JOURNALING with nothing being written, its positions kept. -/
theorem leave (h : s.PlacesOk) (hm : t.epoch.mode = .broken) (ht : t.epoch.table = [])
    (hj : t.journal = s.journal) (hr : recordsHeld t.captures = recordsHeld s.captures) : t.PlacesOk := by
  obtain ⟨h1, h2, h3, h4, h5, h6, h7, h8⟩ := h
  refine ⟨?_, ?_, ?_, ?_, ?_, ?_, ?_, ?_⟩ <;> simp only [hj, hr, hm, ht]
  · exact h1
  · exact h2
  · exact nofun
  · exact List.forall_mem_nil _
  · exact nofun
  · exact fun _ => trivial
  · exact h7
  · exact h8

/-- In PASSTHROUGH, and when START opens epoch 1, the positions are 0 (R11, R17, R21, R131). -/
theorem of_zero (hd : 1 ≤ t.journal.depth ∧ t.journal.depth ≤ 4) (hh : t.journal.head = 0)
    (hw : t.journal.written = 0) (htl : t.journal.tail = 0) (hended : t.journal.ended = [])
    (hr : recordsHeld t.captures = [])
    (ht : (t.epoch.mode ≠ .journaling ∧ t.epoch.table = []) ∨
      (t.epoch.mode = .journaling ∧ t.epoch.counter = 1 ∧ t.epoch.table = [newEntry 1 0 .start])) :
    t.PlacesOk := by
  refine ⟨by omega, hd, fun hm => ?_, fun c hc => ?_, fun _ => hh, fun hm => ?_, ?_, ?_⟩
  · rcases ht with ⟨hn, -⟩ | ⟨-, hc, ht⟩
    · exact absurd hm hn
    · unfold State.TableOk
      rw [ht, hc, htl, hh]
      exact Machine.TableOk.grow (kept := []) hd.1 (List.forall_mem_nil _) .nil .nil (List.forall_mem_nil _)
        (List.forall_mem_nil _) rfl
  · rcases ht with ⟨-, ht⟩ | ⟨-, -, ht⟩ <;> rw [ht] at hc
    · exact nomatch hc
    · rw [List.mem_singleton.mp hc, hw]
      rfl
  · rcases ht with ⟨-, ht⟩ | ⟨hj, -⟩
    · exact ht
    · exact absurd hj hm
  · simp [hr, hended]
  · simp [hr, hended]

end State.PlacesOk

end Sys2Proof.Machine
end

section
/-! PROOFS. Positions, records and captures through the operations of the part. O60. -/

namespace Sys2Proof.Machine

set_option Elab.async false

/-- The capture reads of two ports are for the same writes. -/
def MPort.SameReads (m m' : MPort) : Prop :=
  ((m'.waitingOwners ++ m'.outstandingOwners).filterMap Owner.captureKey?).Perm
    ((m.waitingOwners ++ m.outstandingOwners).filterMap Owner.captureKey?)

theorem MPort.SameReads.refl (m : MPort) : m.SameReads m := List.Perm.refl _

theorem MPort.SameReads.trans {m m' m'' : MPort} (h : m.SameReads m') (h' : m'.SameReads m'') :
    m.SameReads m'' := List.Perm.trans h' h

/-- What the ended requests and those of one port are for, those of the other are for as well. -/
theorem MPort.SameReads.perm {m m' : MPort} (h : m.SameReads m') {x : List Owner}
    {keys : List (BitVec 4 × BitVec 6)}
    (hk : keys.Perm ((x ++ (m.waitingOwners ++ m.outstandingOwners)).filterMap Owner.captureKey?)) :
    keys.Perm ((x ++ (m'.waitingOwners ++ m'.outstandingOwners)).filterMap Owner.captureKey?) := by
  have split (m : MPort) : (x ++ (m.waitingOwners ++ m.outstandingOwners)).filterMap Owner.captureKey? =
      x.filterMap Owner.captureKey? ++ (m.waitingOwners ++ m.outstandingOwners).filterMap Owner.captureKey? :=
    List.filterMap_append
  rw [split] at hk ⊢
  exact hk.trans (List.Perm.append_left _ h.symm)

theorem MPort.SameKeys.reads {m m' : MPort} (h : m.SameKeys m') : m.SameReads m' := by
  unfold MPort.SameReads
  rw [List.filterMap_append, List.filterMap_append, h.asked, h.reading]

/-- What `State.LedgerOk` says beside the rollback, within a step: `ended` lists owners whose requests have
ended, and which have not yet acted on it. -/
structure State.CoreOk (ended : List Owner) (s : State) : Prop where
  places : s.PlacesOk
  idle : s.epoch.mode ≠ .journaling → s.captures = [] ∧ ∀ e ∈ s.waq, e.state ≠ .captureWait
  reads : (readingKeys s.captures).Perm
    ((ended ++ (s.mport.waitingOwners ++ s.mport.outstandingOwners)).filterMap Owner.captureKey?)

section Ties

variable {s u : State} {x : List Owner} {o : Owner} {e : WaqEntry} {t : Transaction}

/-- Entries may change, but come to wait for a capture in JOURNALING alone. -/
theorem State.CoreOk.of_waq (h : s.CoreOk x) (hj : u.journal = s.journal) (he : u.epoch = s.epoch)
    (hc : u.captures = s.captures)
    (hw : s.epoch.mode ≠ .journaling →
      ∀ e ∈ u.waq, e.state = .captureWait → ∃ e' ∈ s.waq, e'.state = .captureWait)
    (hm : s.mport.SameReads u.mport) : u.CoreOk x where
  places := h.places.congr hj he (by rw [hc])
  idle hn := by
    rw [he] at hn
    obtain ⟨h1, h2⟩ := h.idle hn
    refine ⟨hc.trans h1, fun e hmem hst => ?_⟩
    obtain ⟨e', he', hs'⟩ := hw hn e hmem hst
    exact h2 e' he' hs'
  reads := by
    rw [hc]
    exact hm.perm h.reads

theorem State.CoreOk.congr (h : s.CoreOk x) (hj : u.journal = s.journal) (he : u.epoch = s.epoch)
    (hw : s.WaitsAs u) (hm : s.mport.SameReads u.mport) : u.CoreOk x :=
  h.of_waq hj he hw.1 (fun _ => hw.2) hm

/-- What changes neither journal, epochs, WAQ, Capture Buffer nor M port. -/
theorem State.CoreOk.frame (h : s.CoreOk x) (hj : u.journal = s.journal) (he : u.epoch = s.epoch)
    (hc : u.captures = s.captures) (hw : u.waq = s.waq) (hm : u.mport = s.mport) : u.CoreOk x :=
  h.congr hj he (.of_eq hc hw) (hm ▸ .refl _)

/-- Journal and epochs have changed as they should. -/
theorem State.CoreOk.withPlaces (h : s.CoreOk x) (hp : u.PlacesOk) (he : u.epoch.mode = s.epoch.mode)
    (hc : u.captures = s.captures) (hw : u.waq = s.waq) (hm : u.mport = s.mport) : u.CoreOk x where
  places := hp
  idle hn := by
    rw [hc, hw]
    exact h.idle (he ▸ hn)
  reads := by
    rw [hc, hm]
    exact h.reads

theorem State.CoreOk.keyless (ho : o.keyless) (h : s.CoreOk (o :: x)) : s.CoreOk x := by
  refine ⟨h.places, h.idle, ?_⟩
  have := h.reads
  rwa [List.cons_append, List.filterMap_cons_none ho.2] at this

theorem State.join_sameReads (s : State) (ho : o.captureKey? = none) (k : Access) (a : Addr) (n : Nat)
    (m : BitVec 64) (d : Line) : s.mport.SameReads (s.join o k a n m d).mport := by
  unfold MPort.SameReads
  rw [State.join_waitingOwners, State.join_outstandingOwners, List.filterMap_append, List.filterMap_append,
    List.filterMap_append, List.filterMap_cons_none ho, List.filterMap_nil, List.append_nil]

theorem State.makeReady_sameReads (s : State) (t : Transaction) :
    s.mport.SameReads (s.makeReady t).mport := by
  unfold MPort.SameReads
  rw [State.makeReady_waitingOwners, State.makeReady_outstandingOwners, List.filterMap_append,
    List.filterMap_append, List.filterMap_append]
  simp

theorem State.enterFence_sameReads (s : State) : s.mport.SameReads s.enterFence.mport := by
  by_cases hg : s.gate.state = .fence
  · rw [State.enterFence_of_fence hg]
    exact .refl _
  · rw [State.enterFence_of_open hg, State.fenceRemovals_eq]
    unfold MPort.SameReads
    have : ((s.mport.waiting.filter fun r => !r.owner.isWaq).map (·.owner)).filterMap Owner.captureKey? =
        s.mport.waitingOwners.filterMap Owner.captureKey? := by
      rw [MPort.waitingOwners, List.filterMap_map, List.filterMap_map, List.filterMap_filter]
      refine List.filterMap_congr fun r _ => ?_
      simp only [Function.comp_apply]
      cases r.owner <;> rfl
    rw [List.filterMap_append, List.filterMap_append]
    exact List.Perm.append_right _ (.of_eq this)

/-- The decision of a head (R59, R60). -/
theorem State.CoreOk.settleHead (h : s.CoreOk x) : (s.settleHead e).CoreOk x := by
  have ready : (s.makeReady e.txn).CoreOk x := by
    refine h.of_waq (by simp) (by simp) (by simp) (fun _ y hy hst => ?_) (s.makeReady_sameReads _)
    rw [State.makeReady_waq] at hy
    obtain ⟨y', hy', rfl⟩ := List.mem_map.mp hy
    split at hst
    · exact nomatch hst
    · exact ⟨y', hy', hst⟩
  rcases s.settleHead_cases e with ⟨-, -, he⟩ | ⟨-, he⟩ | ⟨-, -, hm, -, he⟩ <;> rw [he]
  · exact h.of_waq rfl rfl rfl (fun _ y hy hst => ⟨y, List.mem_of_mem_filter hy, hst⟩) (.refl _)
  · exact ready
  · exact h.of_waq rfl rfl rfl (fun hn => absurd hm hn) (.refl _)

theorem core_advanceBy (n : Nat) : ∀ {s : State}, s.CoreOk x → (s.advanceBy n).CoreOk x := by
  induction n with
  | zero => exact id
  | succ n ih =>
    intro s h
    unfold State.advanceBy
    split
    · exact h
    · exact ih h.settleHead

theorem State.CoreOk.advance (h : s.CoreOk x) : s.advance.CoreOk x := core_advanceBy _ h

/-- A grant, which only JOURNALING brings (R71). -/
theorem State.CoreOk.grantCapture (h : s.CoreOk x) (he : e ∈ s.waq) (hs : e.state = .captureWait) :
    (s.grantCapture e.txn).CoreOk x := by
  have hm : s.epoch.mode = .journaling := by
    by_contra hn
    exact (h.idle hn).2 e he hs
  refine ⟨h.places.congr rfl rfl ?_, fun hn => absurd hm hn, ?_⟩
  · rw [State.grantCapture_captures, recordsHeld_append]
    exact List.append_nil _
  · have hwait : (s.grantCapture e.txn).mport.waitingOwners =
        s.mport.waitingOwners ++ [.capture e.txn.requester e.txn.tag] := by
      simp [State.grantCapture, State.joinLineRead, MPort.waitingOwners]
    have hout : (s.grantCapture e.txn).mport.outstandingOwners = s.mport.outstandingOwners := rfl
    rw [State.grantCapture_captures, readingKeys_append, hwait, hout]
    refine (List.perm_append_singleton (e.txn.requester, e.txn.tag) _).trans ((h.reads.cons _).trans ?_)
    simp only [List.filterMap_append, List.filterMap_cons, Owner.keys_capture, List.append_assoc,
      List.singleton_append]
    rw [← List.append_assoc, ← List.append_assoc]
    exact List.perm_middle.symm

theorem State.CoreOk.grantCaptures (h : s.CoreOk x) : s.grantCaptures.CoreOk x :=
  State.grantCaptures_induction (fun _ _ h he hs => h.grantCapture he hs) h

theorem State.CoreOk.closeStep (h : s.CoreOk x) : s.closeStep.CoreOk x :=
  h.grantCaptures.congr rfl rfl (.of_eq rfl rfl) (.refl _)

theorem State.CoreOk.enterFence (h : s.CoreOk x) : s.enterFence.CoreOk x :=
  h.congr (by simp) (by simp) waitsAs_enterFence s.enterFence_sameReads

theorem State.CoreOk.openHold (h : s.CoreOk x) : s.openHold.CoreOk x := by
  unfold State.openHold
  refine State.CoreOk.advance (h.of_waq rfl rfl rfl (fun _ e he hst => ?_) (.refl _))
  obtain ⟨e', he', rfl⟩ := List.mem_map.mp he
  split at hst
  · exact nomatch hst
  · exact ⟨e', he', hst⟩

theorem State.CoreOk.redecide (h : s.CoreOk x) : s.redecide.CoreOk x := by
  unfold State.redecide
  refine State.CoreOk.advance (h.of_waq rfl rfl rfl (fun _ e he hst => ?_) ?_)
  · obtain ⟨e', he', rfl⟩ := List.mem_map.mp he
    split at hst
    · exact nomatch hst
    · exact ⟨e', he', hst⟩
  · unfold MPort.SameReads
    rw [List.filterMap_append, List.filterMap_append]
    exact List.Perm.append_right _ (.of_eq s.withdrawn_owners.2)

/-- A refused capture ends: its entry is freed (R70, R74, R75, R76). -/
theorem core_endCapture {k : EventKind} (hl : s.Tracks (.capture t.requester t.tag :: x))
    (h : s.CoreOk (.capture t.requester t.tag :: x)) : (s.endCapture t k).CoreOk x := by
  have hn : (readingKeys s.captures).Nodup :=
    (h.reads.trans hl.capturing).nodup_iff.mpr (nodup_keysIn hl.keys_once _)
  have hm : (t.requester, t.tag) ∈ readingKeys s.captures := h.reads.mem_iff.mpr (by simp)
  obtain ⟨rest, hreads, hheld, hfilter, -⟩ := captures_read hn hm
  have hmode : s.epoch.mode = .journaling := by
    by_contra hj
    rw [(h.idle hj).1] at hm
    exact nomatch hm
  unfold State.endCapture State.freeReading
  refine State.CoreOk.advance (State.CoreOk.grantCaptures ⟨?_, ?_, ?_⟩)
  · exact h.places.congr rfl rfl ((congrArg recordsHeld hfilter).trans hheld.symm)
  · exact fun hj => absurd hmode hj
  · exact (congrArg readingKeys hfilter).symm ▸ (hreads.symm.trans h.reads).cons_inv

end Ties

end Sys2Proof.Machine
end

section
/-! PROOFS. Positions, records and captures through the operations and the steps of the part. O60. -/

namespace Sys2Proof.Machine

set_option Elab.async false

/-- What the Capture Buffer, the positions and the WAQ are in RESTORE: the conditions that ended DRAIN still
hold (R117, R121). -/
def State.Still (s : State) : Prop :=
  s.captures = [] ∧ s.journal.written = s.journal.head ∧ drained s.waq = true

/-- The entries of a drained WAQ are PARKED or WAITING (R63). -/
theorem drainedFrom_states (waq : List WaqEntry) : ∀ {parked : List LineIndex}, drainedFrom parked waq = true →
    ∀ e ∈ waq, e.state = .parked ∨ e.state = .waiting := by
  induction waq with
  | nil => exact fun _ => List.forall_mem_nil _
  | cons y ys ih =>
    intro parked h e he
    unfold drainedFrom at h
    rcases List.mem_cons.mp he with rfl | he
    · split at h
      case h_1 hs => exact .inl hs
      case h_2 hs => exact .inr hs
      case h_3 => exact nomatch h
    · split at h
      · exact ih h e he
      · exact ih (Bool.and_eq_true_iff.mp h).2 e he
      · exact nomatch h

theorem State.Still.states {s : State} (h : s.Still) : ∀ e ∈ s.waq, e.state = .parked ∨ e.state = .waiting :=
  drainedFrom_states _ h.2.2

theorem State.Still.no_captureWait {s : State} (h : s.Still) : ∀ e ∈ s.waq, e.state ≠ .captureWait := by
  intro e he hs
  rcases h.states e he with h | h <;> rw [hs] at h <;> exact nomatch h

theorem State.makeReady_captures (s : State) (t : Transaction) : (s.makeReady t).captures = s.captures := by simp

section Operations

variable {s u : State} {sl : Slot} {w : Walk} {b : Bool} {res : CommandResult} {why : Reason} {d : BitVec 768}
  {rep : Report} {src : Source} {t : Transaction} {k : EventKind} {p n m tie : Nat} {failure : WalkFailure}
  {l : RecordLine} {a : MemAnswer} {rec : Record} {q : BitVec 4} {g : BitVec 6} {image header : Line}
  {sc : Scan} {r : Request} {i : BitVec 8} {c : Checkpoint} {cause : ReleaseCause} {code index : Byte}
  {bytes : List Byte} {target : WriteTarget} {op : Operation} {sources : SealSources} {cmd : Bool}
  {trig : Trigger} {o o' : Owner} {kind : Access} {addr : Addr} {mask : BitVec 64} {data : Line}
  {st : WaqState} {e : WaqEntry} {x : List Owner}

section

variable (h : s.CoreOk x)

include h

theorem core_report : (s.report rep).CoreOk x := h.frame rfl rfl rfl rfl rfl

theorem core_complete : (s.complete res why d).CoreOk x := h.frame rfl rfl rfl rfl rfl

theorem core_completeIf : (s.completeIf b res why d).CoreOk x :=
  h.frame (by simp) (by simp) (by simp) (by simp) (by simp)

theorem core_join (ho : o.keyless) : (s.join o kind addr n mask data).CoreOk x :=
  h.congr rfl rfl (.of_eq rfl rfl) (s.join_sameReads ho.2 ..)

theorem core_joinRecordReads (ho : o.keyless) (ho' : o'.keyless) : (s.joinRecordReads o o' p).CoreOk x :=
  core_join (core_join h ho) ho'

theorem core_abandon (ho : o.keyless) : (s.abandon o).CoreOk x :=
  h.congr rfl rfl (.of_eq rfl rfl) (s.abandon_sameKeys ho).reads

theorem core_stopScan : (s.stopScan res).CoreOk x := by
  unfold State.stopScan
  split
  · exact h
  · exact core_complete ((core_abandon (core_abandon h ⟨rfl, rfl⟩) ⟨rfl, rfl⟩).frame rfl rfl rfl rfl rfl)

theorem core_startGather : (s.startGather op src sources cmd).CoreOk x :=
  h.congr rfl rfl waitsAs_startGather (.refl _)

theorem core_requestSeal : (s.requestSeal src).CoreOk x := by
  unfold State.requestSeal
  split
  · split
    · exact core_startGather h
    · split
      · exact h.frame rfl rfl rfl rfl rfl
      · exact h.frame rfl rfl rfl rfl rfl
      · exact h.frame rfl rfl rfl rfl rfl
      · exact core_startGather (core_stopScan h)
  · exact h

theorem core_freeSlot : s.freeSlot.CoreOk x :=
  h.congr (by simp) (by simp) waitsAs_freeSlot (by simpa using .refl _)

theorem core_endHold : (s.endHold sl).CoreOk x := by
  unfold State.endHold
  split
  · exact h.openHold
  · exact h

theorem core_epochOpen : s.epochOpen.CoreOk x := by
  have hl : (State.loadTimer (State.copyRegions { s with ltt := [] })).CoreOk x := h.frame rfl rfl rfl rfl rfl
  exact hl.redecide

theorem core_examineRelease : s.examineRelease.CoreOk x :=
  h.frame (by simp) (by simp) (by simp) (by simp) (by simp)

theorem core_endRollbackGate : (s.endRollbackGate sl).CoreOk x := by
  unfold State.endRollbackGate
  split
  · exact h.frame rfl rfl rfl rfl rfl
  · split
    · exact h.openHold
    · exact h

theorem core_leaveRollback : s.leaveRollback.CoreOk x := by
  unfold State.leaveRollback
  exact core_examineRelease (core_freeSlot (h.frame rfl rfl rfl rfl rfl))

theorem core_abortGather : (s.abortGather sl).CoreOk x := by
  unfold State.abortGather
  exact core_freeSlot (core_completeIf ((core_endHold h).frame rfl rfl rfl rfl rfl))

theorem core_preemptGather : (s.preemptGather sl).CoreOk x := by
  unfold State.preemptGather
  exact core_completeIf (h.frame rfl rfl rfl rfl rfl)

/-- COMMIT, with everything allocated written (R13). -/
theorem core_commit (hm : s.epoch.mode = .journaling) (hw : s.journal.written = s.journal.head) :
    (s.commit sl).CoreOk x := by
  unfold State.commit
  dsimp only
  refine core_completeIf (State.CoreOk.frame (core_endHold (sl := sl) (core_epochOpen (core_report
    (h.withPlaces ?_ ?_ ?_ ?_ ?_)))) rfl rfl rfl rfl rfl)
  case refine_1 => exact h.places.commit hm hw rfl rfl rfl
  all_goals rfl

theorem core_limitEnd : (s.limitEnd sl).CoreOk x := by
  unfold State.limitEnd
  exact (core_endHold (sl := sl) (core_completeIf (core_report h))).frame rfl rfl rfl rfl rfl

/-- DISCARD, with nothing captured (R109). -/
theorem core_discard (hc : s.captures = []) (hw : ∀ e ∈ s.waq, e.state ≠ .captureWait) :
    (s.discard sl).CoreOk x := by
  unfold State.discard
  dsimp only
  refine core_completeIf (State.CoreOk.frame (core_endHold (sl := sl) (s := State.copyRegions _) ?_)
    rfl rfl rfl rfl rfl)
  refine ⟨.of_zero h.places.depth rfl rfl rfl rfl ?_ (.inl ⟨nofun, rfl⟩), fun _ => ⟨hc, hw⟩, h.reads⟩
  exact (congrArg recordsHeld hc).trans rfl

theorem core_failDrain : (s.failDrain sl w).CoreOk x := by
  unfold State.failDrain
  exact core_leaveRollback (core_completeIf ((core_endRollbackGate (sl := sl) h).frame rfl rfl rfl rfl rfl))

theorem core_abortDrain : (s.abortDrain sl).CoreOk x := by
  unfold State.abortDrain
  exact core_leaveRollback (core_completeIf ((core_endRollbackGate (sl := sl) h).frame rfl rfl rfl rfl rfl))

theorem core_checkTarget : s.checkTarget.CoreOk x := by
  rcases s.checkTarget_cases with he | ⟨_, _, -, -, -, -, -, he⟩ <;> rw [he]
  · exact h
  · exact core_failDrain h

/-- SETTLE, with nothing captured and everything allocated written (R127). -/
theorem core_settle (hc : s.captures = []) (hw : s.journal.written = s.journal.head)
    (ht : ∃ c ∈ s.epoch.table, c.epoch = w.targetEpoch ∧ c.start = w.targetStart) :
    (s.settle sl w).CoreOk x := by
  obtain ⟨c, hmem, hce, hcs⟩ := ht
  have hr : (s.rewound w).CoreOk x := by
    refine h.withPlaces (h.places.settle hw ((congrArg recordsHeld hc).trans rfl) hmem ?_ ?_ rfl) rfl rfl rfl rfl
    · rw [hce, hcs]
      rfl
    · rw [hcs]
      rfl
  have ho : (s.reopened w).CoreOk x := (core_epochOpen hr).frame rfl rfl rfl rfl rfl
  rw [State.settle_eq]
  exact core_leaveRollback (core_completeIf ((core_endRollbackGate (sl := sl) ho).frame rfl rfl rfl rfl rfl))

/-- Entry into BROKEN, with nothing captured (R129). -/
theorem core_enterBroken (hs : s.Still) : (s.enterBroken sl w p failure).CoreOk x := by
  have hcap : (State.enterFence { s with epoch := { s.epoch with mode := .broken } }).captures = s.captures := by
    simp
  have hj : (State.enterFence { s with epoch := { s.epoch with mode := .broken } }).journal = s.journal := by
    simp
  have hwaits := waitsAs_enterFence (s := { s with epoch := { s.epoch with mode := .broken } })
  have hreads := State.enterFence_sameReads { s with epoch := { s.epoch with mode := .broken } }
  have hem : (State.enterFence { s with epoch := { s.epoch with mode := .broken } }).epoch.mode = .broken := by
    simp
  unfold State.enterBroken
  dsimp only
  generalize State.enterFence { s with epoch := { s.epoch with mode := .broken } } = f at *
  refine core_completeIf ⟨h.places.leave hem rfl hj (congrArg recordsHeld hcap), fun _ => ⟨?_, ?_⟩, ?_⟩
  · exact hcap.trans hs.1
  · intro e he hst
    obtain ⟨e', he', hs'⟩ := hwaits.2 e he hst
    exact hs.no_captureWait e' he' hs'
  · change (readingKeys f.captures).Perm
      ((x ++ (f.mport.waitingOwners ++ f.mport.outstandingOwners)).filterMap Owner.captureKey?)
    rw [hcap]
    exact hreads.perm h.reads

/-! ### The walk, records, captures and scans -/

theorem core_writeBack : (s.writeBack w image header n).CoreOk x :=
  core_join (s := { s with engine := some { w with writeAttempt := n } }) (h.frame rfl rfl rfl rfl rfl) ⟨rfl, rfl⟩

theorem core_beginRecord : (s.beginRecord w p).CoreOk x := by
  unfold State.beginRecord
  exact core_joinRecordReads (h.frame rfl rfl rfl rfl rfl) ⟨rfl, rfl⟩ ⟨rfl, rfl⟩

theorem core_restoreRead
    (hs : ∀ w p sl, s.engine = some w → w.walk = some p → s.ops.slot = some sl → s.Still) :
    (s.restoreRead l a).CoreOk x := by
  have engaged (w' : Walk) : State.CoreOk x { s with engine := some w' } := h.frame rfl rfl rfl rfl rfl
  unfold State.restoreRead
  split
  case h_2 => exact h
  case h_1 sl w hslot hw =>
    split
    case h_1 => exact h
    case h_2 p hp =>
      have hstill := hs w p sl hw hp hslot
      dsimp only
      split
      · exact core_join (engaged _) (by cases l <;> exact ⟨rfl, rfl⟩)
      · exact core_enterBroken (core_abandon (engaged _) (by cases l <;> exact ⟨rfl, rfl⟩)) hstill
      · split
        · unfold State.checkRecord
          split
          · exact core_writeBack (engaged _)
          · exact core_enterBroken (engaged _) hstill
        · exact engaged _

theorem core_restoreWritten
    (hs : ∀ w p sl, s.engine = some w → w.walk = some p → s.ops.slot = some sl → s.Still)
    (ht : ∀ w, s.engine = some w →
      ∃ c ∈ s.epoch.table, c.epoch = w.targetEpoch ∧ c.start = w.targetStart) :
    (s.restoreWritten a).CoreOk x := by
  unfold State.restoreWritten
  split
  case h_2 => exact h
  case h_1 sl w hslot hw =>
    split
    case h_2 => exact h
    case h_1 p _ _ hp _ _ =>
      have hstill := hs w p sl hw hp hslot
      split
      · unfold State.restored
        dsimp only
        split
        · exact core_settle (h.frame rfl rfl rfl rfl rfl) hstill.1 hstill.2.1 (ht w hw)
        · exact core_beginRecord (h.frame rfl rfl rfl rfl rfl)
      · split
        · exact core_writeBack h
        · exact core_enterBroken h hstill

theorem core_writeLine : (s.writeLine rec l n).CoreOk x := by
  obtain ⟨hheld, hreads⟩ := captures_writing s.captures rec l n
  have held : State.CoreOk x { s with
      captures := s.captures.map fun c =>
        if c.holds rec.position then { c with state := .writing rec l n } else c } := by
    refine ⟨h.places.congr rfl rfl hheld, fun hn => ?_, ?_⟩
    · obtain ⟨hc, hw⟩ := h.idle hn
      exact ⟨by rw [hc]; rfl, hw⟩
    · exact hreads.symm ▸ h.reads
  cases l
  · exact core_join held ⟨rfl, rfl⟩
  · exact core_join held ⟨rfl, rfl⟩

/-- The writing of a record that the Capture Buffer holds ends (R30). -/
theorem core_endRecord (hp : p ∈ recordsHeld s.captures) : (s.endRecord p).CoreOk x := by
  obtain ⟨hheld, hreads⟩ := captures_without_record s.captures p
  unfold State.endRecord
  refine State.CoreOk.grantCaptures ⟨h.places.endRecord hp rfl rfl hheld, fun hn => ?_, ?_⟩
  · obtain ⟨hc, hw⟩ := h.idle hn
    exact ⟨by rw [hc]; rfl, hw⟩
  · exact hreads.symm ▸ h.reads

theorem core_journalFault (hp : rec.position ∈ recordsHeld s.captures) : (s.journalFault q rec l).CoreOk x := by
  unfold State.journalFault
  refine core_checkTarget (core_requestSeal (core_endRecord (core_report (h.withPlaces ?_ ?_ ?_ ?_ ?_)) hp))
  case refine_1 =>
    exact h.places.markTable (f := fun c => { c with condition := .lost }) (fun _ => rfl) (fun _ => rfl)
      (fun _ => rfl) rfl rfl rfl
  all_goals rfl

theorem core_recordWritten : (s.recordWritten p l a).CoreOk x := by
  unfold State.recordWritten
  split
  case h_1 => exact h
  case h_2 c hc =>
    have hheld : c.position? = some p := (c.holds_iff p).mp (List.find?_some (p := (CaptureEntry.holds · p)) hc)
    have hp : p ∈ recordsHeld s.captures := by
      rw [recordsHeld_eq]
      exact List.mem_filterMap.mpr ⟨c, List.mem_of_find?_eq_some hc, hheld⟩
    split
    case h_2 => exact h
    case h_1 r line n hst =>
      have hr : r.position = p := by simpa [CaptureEntry.position?, hst, CaptureState.record?] using hheld
      split
      · exact core_writeLine h
      · exact core_endRecord h hp
      · split
        · exact core_writeLine h
        · exact core_journalFault h (hr ▸ hp)

theorem core_dropOldest : (s.dropOldest q).CoreOk x := by
  unfold State.dropOldest
  split
  case h_1 ht =>
    refine core_report (h.withPlaces ?_ ?_ ?_ ?_ ?_)
    case refine_1 => exact h.places.drop ht rfl rfl rfl
    all_goals rfl
  case h_2 => exact h

omit h in
theorem core_relieveBy (q : BitVec 4) (n : Nat) :
    ∀ {s : State}, s.CoreOk x → (s.relieveBy q n).CoreOk x := by
  induction n with
  | zero => exact id
  | succ n ih =>
    intro s h
    unfold State.relieveBy
    split
    · exact ih (core_dropOldest h)
    · exact h

omit h in
/-- An allocation places its record at head, where there is room (R26). -/
theorem core_place (hl : s.Tracks (.capture t.requester t.tag :: x))
    (h : s.CoreOk (.capture t.requester t.tag :: x))
    (hroom : s.journal.head < s.journal.tail + s.journal.capacity) : (s.place t image).CoreOk x := by
  have hn : (readingKeys s.captures).Nodup :=
    (h.reads.trans hl.capturing).nodup_iff.mpr (nodup_keysIn hl.keys_once _)
  have hm : (t.requester, t.tag) ∈ readingKeys s.captures := h.reads.mem_iff.mpr (by simp)
  obtain ⟨rest, hreads, hheld, -, hstaged⟩ := captures_read hn hm
  obtain ⟨hkeys, hpos⟩ := hstaged (s.newRecord t image)
  have hmode : s.epoch.mode = .journaling := by
    by_contra hj
    rw [(h.idle hj).1] at hm
    exact nomatch hm
  unfold State.place
  dsimp only
  refine core_writeLine ⟨?_, fun hj => ?_, ?_⟩
  · refine h.places.allocate hmode hroom (table := if (s.newRecord t image).repeated then
      countRepeat s.epoch.table else s.epoch.table) ?_ ?_ ?_ ?_
    · split
      · exact .inr rfl
      · exact .inl rfl
    · simp
    · simp
    · rw [State.makeReady_captures, hheld]
      exact hpos
  · exact absurd hmode (by simpa using hj)
  · rw [State.makeReady_captures]
    exact (State.makeReady_sameReads _ t).perm (hkeys.symm ▸ (hreads.symm.trans h.reads).cons_inv)

omit h in
theorem core_allocate (hl : s.Linked (.capture t.requester t.tag :: x))
    (h : s.CoreOk (.capture t.requester t.tag :: x)) : (s.allocate t image).CoreOk x := by
  unfold State.allocate State.relieve
  have hq := core_relieveBy t.requester s.epoch.table.length h
  have hlq := linked_relieveBy t.requester s.epoch.table.length hl
  dsimp only
  split
  case isTrue =>
    have ha := core_requestSeal (src := .pressure) hq
    have hla := linked_requestSeal (src := .pressure) hlq
    split
    case isTrue hocc =>
      refine core_place hla.1 ha ?_
      have := ha.places.positions
      simp only [Journal.occupancy] at hocc
      omega
    case isFalse => exact core_endCapture hla.1 ha
  case isFalse hpress =>
    refine core_place hlq.1 hq ?_
    have := hq.places.positions
    have hroom := of_decide_eq_false (Bool.eq_false_iff.mpr hpress)
    simp only [Config.reserve] at hroom
    omega

omit h in
theorem core_captureRead (hl : s.Linked (.capture q g :: x)) (h : s.CoreOk (.capture q g :: x)) :
    (s.captureRead q g a).CoreOk x := by
  unfold State.captureRead
  split
  case h_1 hnone =>
    obtain ⟨e, he, -, hk⟩ := hl.1.captured_entry
    exact absurd ((e.keyIs_iff q g).mpr hk) (List.find?_eq_none.mp hnone e he)
  case h_2 e hsome =>
    obtain ⟨-, hk⟩ := State.waqEntry_spec hsome
    obtain ⟨rfl, rfl⟩ := Prod.mk.inj hk
    split
    · exact core_endCapture hl.1 h
    · split
      · exact core_checkTarget (core_allocate hl h)
      · exact core_endCapture hl.1 h

theorem core_scanOn : (s.scanOn sc).CoreOk x := by
  unfold State.scanOn State.completeScan
  dsimp only
  split
  · exact core_freeSlot (h.frame rfl rfl rfl rfl rfl)
  · exact core_joinRecordReads (h.frame rfl rfl rfl rfl rfl) ⟨rfl, rfl⟩ ⟨rfl, rfl⟩

/-- A bad record marks entries DAMAGED (R138). -/
theorem core_damaged : State.CoreOk x { s with epoch := { s.epoch with table := markDamaged p s.epoch.table } } := by
  refine h.withPlaces ?_ rfl rfl rfl rfl
  refine h.places.markTable (f := fun c =>
    if c.start ≤ p ∧ c.condition = .usable then { c with condition := .damaged } else c) ?_ ?_ ?_ rfl rfl rfl
  all_goals
    intro c
    split <;> rfl

theorem core_verifyRead : (s.verifyRead l a).CoreOk x := by
  have scanning (sc' : Scan) : State.CoreOk x { s with scan := some sc' } := h.frame rfl rfl rfl rfl rfl
  unfold State.verifyRead
  split
  case h_1 => exact h
  case h_2 =>
    dsimp only
    split
    · exact core_join (scanning _) (by cases l <;> exact ⟨rfl, rfl⟩)
    · split
      · unfold State.takeScanned
        dsimp only
        split
        · exact core_scanOn (scanning _)
        · split
          · exact core_scanOn (core_damaged (scanning _))
          · exact core_scanOn (scanning _)
      · exact scanning _

theorem core_inspectRead : (s.inspectRead l a).CoreOk x := by
  unfold State.inspectRead
  split
  case h_1 => exact h
  case h_2 =>
    dsimp only
    split
    · exact core_join (h.frame rfl rfl rfl rfl rfl) (by cases l <;> exact ⟨rfl, rfl⟩)
    · split
      · exact h.frame rfl rfl rfl rfl rfl
      · exact h.frame rfl rfl rfl rfl rfl

/-! ### The steps of the data path -/

theorem core_forwardEnds : (s.forwardEnds q g r a).CoreOk x := by
  unfold State.forwardEnds
  split
  · exact h.frame rfl rfl rfl rfl rfl
  · split <;> exact h.frame rfl rfl rfl rfl rfl

theorem core_removeWaq : (s.removeWaq q g).CoreOk x :=
  h.congr rfl rfl ⟨rfl, fun e he hst => ⟨e, List.mem_of_mem_filter he, hst⟩⟩ (.refl _)

omit h in
theorem core_ownerActs (hl : s.Linked (r.owner :: x)) (h : s.CoreOk (r.owner :: x))
    (hs : ∀ w p sl, s.engine = some w → w.walk = some p → s.ops.slot = some sl → s.Still)
    (ht : ∀ w, s.engine = some w →
      ∃ c ∈ s.epoch.table, c.epoch = w.targetEpoch ∧ c.start = w.targetStart) :
    (s.ownerActs r a).CoreOk x := by
  have other (ho : r.owner.captureKey? = none) : s.CoreOk x := by
    refine ⟨h.places, h.idle, ?_⟩
    have := h.reads
    rwa [List.cons_append, List.filterMap_cons_none ho] at this
  unfold State.ownerActs
  split
  case h_1 ho => exact core_forwardEnds (core_removeWaq (other (ho ▸ rfl)))
  case h_2 ho => exact core_forwardEnds (other (ho ▸ rfl))
  case h_3 ho => exact core_captureRead (ho ▸ hl) (ho ▸ h)
  case h_4 ho => exact core_recordWritten (other (ho ▸ rfl))
  case h_5 ho => exact core_recordWritten (other (ho ▸ rfl))
  case h_6 ho => exact core_restoreRead (other (ho ▸ rfl)) hs
  case h_7 ho => exact core_restoreRead (other (ho ▸ rfl)) hs
  case h_8 ho => exact core_restoreWritten (other (ho ▸ rfl)) hs ht
  case h_9 ho => exact core_verifyRead (other (ho ▸ rfl))
  case h_10 ho => exact core_verifyRead (other (ho ▸ rfl))
  case h_11 ho => exact core_inspectRead (other (ho ▸ rfl))
  case h_12 ho => exact core_inspectRead (other (ho ▸ rfl))
  case h_13 ho => exact other (ho ▸ rfl)

/-- A transaction enters the WAQ (R59). -/
theorem core_routeTransaction : (s.routeTransaction t).CoreOk x := by
  have enter : (s.enterWaq t).CoreOk x := by
    unfold State.enterWaq
    refine State.CoreOk.advance (h.of_waq rfl rfl rfl (fun _ e he hst => ?_) (.refl _))
    rcases List.mem_append.mp he with he | he
    · exact ⟨e, he, hst⟩
    · rw [List.mem_singleton.mp he] at hst
      unfold State.firstState at hst
      dsimp only at hst
      split at hst <;> exact nomatch hst
  unfold State.routeTransaction
  split
  · exact enter
  · split
    · exact enter
    · exact core_join h ⟨rfl, rfl⟩

/-- A granted request is outstanding instead of waiting (R149). -/
theorem core_issue (hr : r ∈ s.mport.waiting) : ((s.send i r).issue r).CoreOk x := by
  have sent : (s.send i r).CoreOk x := by
    refine h.congr rfl rfl (.of_eq rfl rfl) ?_
    refine List.Perm.filterMap _ ?_
    have hw : s.mport.waitingOwners.Perm (r.owner :: (s.send i r).mport.waitingOwners) :=
      (List.perm_cons_erase hr).map Request.owner
    have ho : (s.send i r).mport.outstandingOwners = s.mport.outstandingOwners ++ [r.owner] := by
      simp [State.send, MPort.outstandingOwners]
    rw [ho, ← List.append_assoc]
    exact (List.perm_append_singleton _ _).trans (hw.symm.append_right _)
  unfold State.issue
  split
  case h_1 q g _ =>
    refine State.CoreOk.advance (sent.of_waq rfl rfl rfl (fun _ e he hst => ?_) (.refl _))
    obtain ⟨e', he', rfl⟩ := List.mem_map.mp he
    split at hst
    · exact nomatch hst
    · exact ⟨e', he', hst⟩
  case h_2 => exact sent

end

/-! ### The steps -/

/-- An ended request's owner has yet to act (R147, R148). -/
theorem core_freeRequest (hn : (s.mport.outstanding.map (·.ident)).Nodup)
    (hr : s.mport.outstandingOf i = some r) (h : s.CoreOk []) : (s.freeRequest i).CoreOk [r.owner] := by
  have hp := MPort.outstandingOf_perm hn hr
  refine ⟨h.places.congr rfl rfl rfl, h.idle, h.reads.trans (List.Perm.filterMap _ ?_)⟩
  change (s.mport.waitingOwners ++ s.mport.outstandingOwners).Perm (r.owner :: (s.mport.waitingOwners ++
    (s.mport.outstanding.filter fun o => o.ident != i).map (·.request.owner)))
  exact (hp.append_left _).trans List.perm_middle

section

variable (h : s.CoreOk [])

include h

theorem core_acceptTransaction : (s.acceptTransaction t).CoreOk [] := by
  unfold State.acceptTransaction
  split
  · exact h
  · split
    · exact h.frame rfl rfl rfl rfl rfl
    · split
      · exact h.frame rfl rfl rfl rfl rfl
      · exact h
      · exact (core_routeTransaction h).closeStep
      · exact (core_routeTransaction h).closeStep

theorem core_grant : (s.grant i tie).CoreOk [] := by
  unfold State.grant
  split
  case isFalse => exact h
  case isTrue =>
    split
    case h_1 => exact h
    case h_2 r hr => exact (core_issue h (MPort.choice_mem hr)).closeStep

theorem core_freeIdent : (s.freeIdent i).CoreOk [] :=
  h.congr rfl rfl (.of_eq rfl rfl) (MPort.SameKeys.of_eq rfl rfl).reads

theorem core_portAnswer (hn : (s.mport.outstanding.map (·.ident)).Nodup) (hl : s.Linked [])
    (hs : ∀ w p sl, s.engine = some w → w.walk = some p → s.ops.slot = some sl → s.Still)
    (ht : ∀ w, s.engine = some w →
      ∃ c ∈ s.epoch.table, c.epoch = w.targetEpoch ∧ c.start = w.targetStart) :
    (s.portAnswer i a).CoreOk [] := by
  unfold State.portAnswer
  split
  case h_1 r hr =>
    exact (core_ownerActs (linked_freeRequest hn hr hl) (core_freeRequest hn hr h) hs ht).closeStep
  case h_2 => exact core_freeIdent h

theorem core_timeOut (hn : (s.mport.outstanding.map (·.ident)).Nodup) (hl : s.Linked [])
    (hs : ∀ w p sl, s.engine = some w → w.walk = some p → s.ops.slot = some sl → s.Still)
    (ht : ∀ w, s.engine = some w →
      ∃ c ∈ s.epoch.table, c.epoch = w.targetEpoch ∧ c.start = w.targetStart) :
    (s.timeOut i).CoreOk [] := by
  unfold State.timeOut
  split
  case h_1 r hr =>
    have same : MPort.SameKeys (s.freeRequest i).mport ((s.freeRequest i).withhold i).mport := .of_eq rfl rfl
    exact (core_ownerActs ((linked_freeRequest hn hr hl).congr (u := (s.freeRequest i).withhold i) rfl same)
      ((core_freeRequest hn hr h).congr rfl rfl (.of_eq rfl rfl) same.reads) hs ht).closeStep
  case h_2 => exact h

theorem core_epochTimerExpiry : s.epochTimerExpiry.CoreOk [] := by
  unfold State.epochTimerExpiry
  split
  case h_2 => exact h
  case h_3 => exact h
  case h_1 =>
    unfold State.timerExpires
    split
    · exact h.frame rfl rfl rfl rfl rfl
    · split
      · exact h.frame rfl rfl rfl rfl rfl
      · exact core_requestSeal (h.frame rfl rfl rfl rfl rfl)

omit h in
theorem State.gatherDone_iff : s.gatherDone = true ↔
    gathered s.waq = true ∧ s.captures = [] ∧ s.journal.written = s.journal.head := by
  simp [State.gatherDone, and_assoc]

omit h in
theorem State.drainDone_iff : s.drainDone = true ↔
    drained s.waq = true ∧ s.captures = [] ∧ s.journal.written = s.journal.head ∧
      (∀ r ∈ s.mport.waiting, r.owner.isBypass = false) ∧
      ∀ o ∈ s.mport.outstanding, o.request.owner.isBypass = false := by
  simp [State.drainDone, and_assoc]

omit h in
/-- With the Capture Buffer empty no write waits for an entry (R71). -/
theorem State.ResourcesOk.no_captureWait (hr : s.ResourcesOk) (hc : s.captures = []) :
    ∀ e ∈ s.waq, e.state ≠ .captureWait := by
  rcases hr.granted with hg | hg
  · rw [hc] at hg
    exact absurd hg (by decide)
  · exact hg

theorem core_gatherEnds (hres : s.ResourcesOk) (hmodes : s.ModesOk) : s.gatherEnds.CoreOk [] := by
  unfold State.gatherEnds
  split
  case h_1 => exact h
  case h_2 sl hs =>
    split
    · split
      case isTrue hd =>
        obtain ⟨-, -, hw⟩ := State.gatherDone_iff.mp hd
        refine State.CoreOk.closeStep ?_
        split
        · exact core_commit h (hmodes.journaling_of_slot hs) hw
        · exact core_limitEnd h
      case isFalse => exact h
    · split
      case isTrue hd =>
        obtain ⟨-, hc, -⟩ := State.gatherDone_iff.mp hd
        exact (core_discard h hc (hres.no_captureWait hc)).closeStep
      case isFalse => exact h
    · exact h
    · exact h

theorem core_drainEnds (ht : ∀ w, s.engine = some w →
    ∃ c ∈ s.epoch.table, c.epoch = w.targetEpoch ∧ c.start = w.targetStart) : s.drainEnds.CoreOk [] := by
  unfold State.drainEnds
  split
  case h_1 sl w _ hw =>
    split
    case isTrue hd =>
      obtain ⟨-, -, hdone⟩ := hd
      obtain ⟨-, hc, hwh, -⟩ := State.drainDone_iff.mp hdone
      refine State.CoreOk.closeStep ?_
      split
      · exact core_settle h hc hwh (ht w hw)
      · exact core_beginRecord (h.frame rfl rfl rfl rfl rfl)
    case isFalse => exact h
  case h_2 => exact h

theorem core_displace : s.displace.CoreOk [] := by
  unfold State.displace
  split
  · exact h
  · split
    · exact core_preemptGather h
    · exact core_preemptGather h
    · exact core_stopScan h
    · exact core_completeIf h

theorem core_startFenceTimer : s.startFenceTimer.CoreOk [] := h.frame rfl rfl rfl rfl rfl

theorem core_faultJournaling : s.faultJournaling.CoreOk [] := by
  have fenced {u : State} (hu : u.CoreOk []) : u.enterFence.CoreOk [] := hu.enterFence
  unfold State.faultJournaling State.reportFault
  dsimp only
  split
  · exact fenced (h.frame rfl rfl rfl rfl rfl)
  · split
    · exact core_startFenceTimer ((fenced (core_report h)).frame rfl rfl rfl rfl rfl)
    · unfold State.startFaultRollback
      refine State.CoreOk.frame (fenced ?_) rfl rfl rfl rfl rfl
      exact (core_displace (core_report h)).frame rfl rfl rfl rfl rfl

theorem core_faultRises : s.faultRises.CoreOk [] := by
  unfold State.faultRises State.dispatchFault State.reportFault
  dsimp only
  split
  · exact h
  · split
    · split
      · exact core_startFenceTimer (State.CoreOk.enterFence (h.frame rfl rfl rfl rfl rfl))
      · exact core_faultJournaling (h.frame rfl rfl rfl rfl rfl)
      · exact h.frame rfl rfl rfl rfl rfl
    · exact h.frame rfl rfl rfl rfl rfl

theorem core_faultFalls : s.faultFalls.CoreOk [] := by
  unfold State.faultFalls
  split
  · exact core_examineRelease (h.frame rfl rfl rfl rfl rfl)
  · exact h

theorem core_fenceTimerExpires : s.fenceTimerExpires.CoreOk [] := by
  unfold State.fenceTimerExpires
  split
  · exact h
  · exact core_examineRelease (h.frame (by simp) (by simp) (by simp) (by simp) (by simp))

theorem core_abortWritten : s.abortWritten.CoreOk [] := by
  have pending : State.CoreOk [] { s with ops := { s.ops with abortPending := true } } :=
    h.frame rfl rfl rfl rfl rfl
  unfold State.abortWritten
  split
  · exact h
  · split
    · exact h
    · unfold State.honourAbort
      split
      · exact pending
      · split <;> split
        · exact (core_abortGather pending).closeStep
        · exact pending
        · exact (core_abortGather pending).closeStep
        · exact pending
        · exact (core_abortDrain pending).closeStep
        · exact pending
        · exact core_freeSlot (core_stopScan pending)
        · exact pending

theorem core_writeTimerCtl : (s.writeTimerCtl bytes).CoreOk [] := by
  unfold State.writeTimerCtl
  dsimp only
  split
  · exact core_requestSeal (h.frame rfl rfl rfl rfl rfl)
  · exact h.frame rfl rfl rfl rfl rfl

/-! ### The mailbox's commands -/

theorem core_taken : (s.taken code).CoreOk [] := h.frame rfl rfl rfl rfl rfl

theorem core_reject : (s.reject why).CoreOk [] := core_complete h

theorem core_busy : s.busy.CoreOk [] := core_complete h

omit h in
/-- A geometry that SET_JOURNAL takes has 1 to 4 checkpoints (R20). -/
theorem depth_of_journalCheck {params : JournalParams} (hn : s.journalCheck params = none) :
    1 ≤ (geometryOf params).depth ∧ (geometryOf params).depth ≤ 4 := by
  unfold geometryOf
  split
  case isTrue => exact ⟨le_rfl, by decide⟩
  case isFalse hc =>
    unfold State.journalCheck at hn
    rw [if_neg hc] at hn
    split at hn
    · cases hn
    · split at hn
      · cases hn
      · split at hn
        · cases hn
        case isFalse hd => exact not_not.mp hd

/-- In PASSTHROUGH the positions are 0 and nothing is being written (R17, R21). -/
theorem State.CoreOk.passthrough (hm : s.epoch.mode = .passthrough) :
    s.captures = [] ∧ s.journal.head = 0 ∧ s.journal.written = 0 ∧ s.journal.tail = 0 ∧ s.journal.ended = [] := by
  have hh := h.places.passthrough hm
  have hpos := h.places.positions
  have hw : s.journal.written = 0 := by omega
  exact ⟨(h.idle (by rw [hm]; decide)).1, hh, hw, by omega, h.places.ended_nil (by omega)⟩

theorem core_setJournal : s.setJournal.CoreOk [] := by
  unfold State.setJournal
  split
  case isTrue hm =>
    obtain ⟨hc, hh, hw, ht, he⟩ := h.passthrough hm
    dsimp only
    split
    · exact core_reject h
    case h_2 hn =>
      refine core_complete (h.withPlaces (.of_zero (depth_of_journalCheck hn) hh hw ht he
        ((congrArg recordsHeld hc).trans rfl) (.inl ⟨?_, ?_⟩)) rfl rfl rfl rfl)
      · exact fun hj => nomatch hm.symm.trans hj
      · exact h.places.no_epoch (by rw [hm]; decide)
  case isFalse => exact core_reject h

theorem core_setRegion : s.setRegion.CoreOk [] := by
  unfold State.setRegion
  dsimp only
  split
  · exact core_complete h
  · rw [State.copyIfIdle_eq]
    exact h.frame rfl rfl rfl rfl rfl

theorem core_setPolicy : s.setPolicy.CoreOk [] := by
  unfold State.setPolicy
  dsimp only
  split
  · exact core_complete h
  · rw [State.copyIfIdle_eq]
    exact h.frame rfl rfl rfl rfl rfl

theorem core_startJournaling : s.startJournaling.CoreOk [] := by
  unfold State.startJournaling
  split
  · exact core_reject h
  · exact core_reject h
  case h_3 hm =>
    obtain ⟨hc, -⟩ := h.passthrough hm
    split
    · refine State.CoreOk.closeStep (core_complete (core_epochOpen ⟨?_, fun hn => absurd rfl hn, h.reads⟩))
      exact .of_zero h.places.depth rfl rfl rfl rfl ((congrArg recordsHeld hc).trans rfl) (.inr ⟨rfl, rfl, rfl⟩)
    · exact core_reject h

theorem core_stopJournaling : s.stopJournaling.CoreOk [] := by
  unfold State.stopJournaling
  split
  · exact core_complete h
  · exact core_reject h
  · split
    · exact core_startGather h
    · exact core_busy h

theorem core_sealEpoch : s.sealEpoch.CoreOk [] := by
  unfold State.sealEpoch
  split
  · exact core_reject h
  · exact core_reject h
  · split
    · exact core_startGather h
    · split
      case h_1 => exact h.frame rfl rfl rfl rfl rfl
      all_goals exact core_busy h

theorem core_startCommandRollback : (s.startCommandRollback c).CoreOk [] := by
  unfold State.startCommandRollback
  dsimp only
  split
  · exact h.frame rfl rfl rfl rfl rfl
  · exact h.frame rfl rfl rfl rfl rfl

theorem core_rollbackTo : s.rollbackTo.CoreOk [] := by
  unfold State.rollbackTo
  split
  · exact core_reject h
  · exact core_reject h
  · split
    · split
      · exact core_reject h
      · split
        · exact core_reject h
        · exact core_reject h
        · unfold State.requestRollback
          split
          · exact core_startCommandRollback h
          · split
            · exact core_startCommandRollback (core_preemptGather h)
            all_goals exact core_busy h
    · exact core_reject h

theorem core_verifyJournal : s.verifyJournal.CoreOk [] := by
  unfold State.verifyJournal
  split
  · exact core_reject h
  · exact core_reject h
  · split
    · unfold State.startScan
      exact State.CoreOk.closeStep (core_scanOn (h.frame rfl rfl rfl rfl rfl))
    · exact core_busy h

theorem core_releaseFence : s.releaseFence.CoreOk [] := by
  unfold State.releaseFence
  split
  · exact core_reject h
  · dsimp only
    split
    · exact core_complete (h.frame (by simp) (by simp) (by simp) (by simp) (by simp))
    · exact core_complete h

theorem core_recoverPart : s.recoverPart.CoreOk [] := by
  unfold State.recoverPart
  split
  · exact core_reject h
  · exact core_reject h
  case h_3 hm =>
    obtain ⟨hc, hw⟩ := h.idle (by rw [hm]; decide)
    refine core_complete (core_examineRelease ⟨?_, fun _ => ⟨hc, hw⟩, h.reads⟩)
    exact .of_zero h.places.depth rfl rfl rfl rfl ((congrArg recordsHeld hc).trans rfl)
      (.inl ⟨nofun, h.places.no_epoch (by rw [hm]; decide)⟩)

theorem core_readRecordAt : s.readRecordAt.CoreOk [] := by
  unfold State.readRecordAt
  split
  · exact core_reject h
  · dsimp only
    split
    · exact State.CoreOk.closeStep
        (core_joinRecordReads (h.frame rfl rfl rfl rfl rfl) ⟨rfl, rfl⟩ ⟨rfl, rfl⟩)
    · exact core_reject h

theorem core_tick (pending : List Instr) : State.CoreOk [] { s.countTick with pending := pending } := by
  refine h.congr rfl rfl (.of_eq rfl rfl) (MPort.SameKeys.reads ⟨rfl, rfl, ?_, ?_⟩)
  · simp only [MPort.outstandingOwners, State.countTick, List.map_map]
    rfl
  · simp only [MPort.outstandingOwners, State.countTick, List.map_map]
    rfl

end

end Operations

end Sys2Proof.Machine
end

section
/-! PROOFS. The rollback in the slot: its hold of the gate, its target and its walk through every step, and
with them the Checkpoint Table and the journal positions. O60. -/

namespace Sys2Proof.Machine

set_option Elab.async false

/-- What `State.LedgerOk` says of a rollback. -/
structure State.RollbackOk (s : State) : Prop where
  rollback_holds : s.ops.holds .rollback = true → s.gate.state = .holdAll ∨ s.gate.state = .fence
  target : ∀ w, s.engine = some w →
    ∃ c ∈ s.epoch.table, c.epoch = w.targetEpoch ∧ c.start = w.targetStart
  walking : ∀ w sl, s.engine = some w → s.ops.slot = some sl → w.walk ≠ none → sl.phase = .restore
  restoring : ∀ sl, s.ops.slot = some sl → sl.phase = .restore → s.Still

/-- What of the slot a rollback's hold, target and walk are tied to. -/
def Slot.stage (sl : Slot) : Operation × Phase := (sl.operation, sl.phase)

/-- The engine of `t` has the target of that of `s`, and walks only if that does. -/
def State.EngineAs (s t : State) : Prop :=
  ∀ w', t.engine = some w' → ∃ w, s.engine = some w ∧ w'.targetEpoch = w.targetEpoch ∧
    w'.targetStart = w.targetStart ∧ (w'.walk ≠ none → w.walk ≠ none)

theorem State.EngineAs.of_eq {s t : State} (h : t.engine = s.engine) : s.EngineAs t :=
  fun w hw => ⟨w, h ▸ hw, rfl, rfl, id⟩

/-- An ordered table tells the target by its epoch. -/
theorem State.PlacesOk.start_of_epoch {s : State} (h : s.PlacesOk) {c d : Checkpoint}
    (hc : c ∈ s.epoch.table) (hd : d ∈ s.epoch.table) (he : c.epoch = d.epoch) : c.start = d.start := by
  rw [(h.table (h.journaling_of_mem hc)).eq_of_epoch hc hd he]

section Operations

variable {s t : State} {sl : Slot} {w : Walk} {b : Bool} {res : CommandResult} {why : Reason} {d : BitVec 768}
  {rep : Report} {src : Source} {txn : Transaction} {k : EventKind} {p n m tie : Nat} {failure : WalkFailure}
  {l : RecordLine} {a : MemAnswer} {rec : Record} {q : BitVec 4} {g : BitVec 6} {image header : Line}
  {sc : Scan} {r : Request} {i : BitVec 8} {c : Checkpoint} {cause : ReleaseCause} {code index : Byte}
  {bytes : List Byte} {o o' : Owner} {x : List Owner}

/-! ### What keeps the ties -/

theorem State.RollbackOk.carry (h : s.RollbackOk)
    (hs : t.ops.slot.map Slot.stage = s.ops.slot.map Slot.stage)
    (hg : s.gate.state = .holdAll ∨ s.gate.state = .fence → t.gate.state = .holdAll ∨ t.gate.state = .fence)
    (he : s.EngineAs t) (ht : t.epoch.table = s.epoch.table) (hst : s.Still → t.Still) : t.RollbackOk := by
  have stage (sl : Slot) (hsl : t.ops.slot = some sl) :
      ∃ sl', s.ops.slot = some sl' ∧ sl'.operation = sl.operation ∧ sl'.phase = sl.phase := by
    rw [hsl] at hs
    obtain ⟨sl', hsl', he⟩ := Option.map_eq_some_iff.mp hs.symm
    exact ⟨sl', hsl', by simpa [Slot.stage] using he⟩
  refine ⟨fun hr => hg (h.rollback_holds ?_), fun w' hw' => ?_, fun w' sl hw' hsl hwalk => ?_,
    fun sl hsl hp => hst ?_⟩
  · obtain ⟨sl, hsl, hop⟩ := (Option.any_eq_true ..).mp hr
    obtain ⟨sl', hsl', hop', -⟩ := stage sl hsl
    simpa [OpCtl.holds, hsl', hop'] using hop
  · obtain ⟨w, hw, h1, h2, -⟩ := he w' hw'
    rw [ht, h1, h2]
    exact h.target w hw
  · obtain ⟨w, hw, -, -, h3⟩ := he w' hw'
    obtain ⟨sl', hsl', -, hp⟩ := stage sl hsl
    rw [← hp]
    exact h.walking w sl' hw hsl' (h3 hwalk)
  · obtain ⟨sl', hsl', -, hp'⟩ := stage sl hsl
    exact h.restoring sl' hsl' (hp'.trans hp)

/-- Without an engine no rollback runs (R112). -/
theorem State.rollbackOk_of_engine (hc : t.CommandOk) (he : t.engine = none) : t.RollbackOk := by
  have hn : t.ops.holds .rollback = false := by rw [← hc.engine_runs, he]; rfl
  refine ⟨fun h => absurd (hn.symm.trans h) (by decide), fun w hw => ?_, fun w _ hw => ?_, fun sl hsl hp => ?_⟩
  · rw [he] at hw
    exact nomatch hw
  · rw [he] at hw
    exact nomatch hw
  · have := hc.phases sl hsl
    rw [hp] at this
    cases hop : sl.operation
    case rollback => simp [OpCtl.holds, hsl, hop] at hn
    all_goals
      rw [hop] at this
      exact nomatch this

/-- No engine runs unless a rollback holds the slot. -/
theorem State.CommandOk.engine_none (h : s.CommandOk) (hr : s.ops.holds .rollback = false) : s.engine = none := by
  have := h.engine_runs
  rw [hr] at this
  simpa using this

theorem State.CommandOk.engine_none_of_slot (h : s.CommandOk) (hs : s.ops.slot = none) : s.engine = none :=
  h.engine_none (by simp [OpCtl.holds, hs])

/-- After a rollback nothing holds the slot, or a seal does. -/
theorem rollbackOk_leaveRollback : s.leaveRollback.RollbackOk := by
  have hengine : s.leaveRollback.engine = none := by simp [State.leaveRollback]
  have hslot : ∀ sl, s.leaveRollback.ops.slot = some sl → sl.operation = .seal ∧ sl.phase = .gather := by
    intro sl hsl
    have hclaim := (State.examineRelease_claim (State.freeSlot { s with engine := none })).1
    rw [show (State.freeSlot { s with engine := none }).examineRelease = s.leaveRollback from rfl, hsl] at hclaim
    obtain ⟨sl', hsl', he⟩ := Option.map_eq_some_iff.mp hclaim.symm
    have hop : sl'.operation = sl.operation ∧ sl'.phase = sl.phase ∧ sl'.command = sl.command := by
      simpa [Slot.claim] using he
    rw [← hop.1, ← hop.2.1]
    unfold State.freeSlot at hsl'
    dsimp only at hsl'
    split at hsl'
    · split at hsl'
      · exact nomatch hsl'
      · cases hsl'
        exact ⟨rfl, rfl⟩
    · exact nomatch hsl'
  refine ⟨fun hr => ?_, fun w hw => ?_, fun w _ hw => ?_, fun sl hsl hp => ?_⟩
  · obtain ⟨sl, hsl, hop⟩ := (Option.any_eq_true ..).mp hr
    simp [(hslot sl hsl).1] at hop
  · rw [hengine] at hw
    exact nomatch hw
  · rw [hengine] at hw
    exact nomatch hw
  · rw [(hslot sl hsl).2] at hp
    exact nomatch hp

theorem rollbackOk_failDrain : (s.failDrain sl w).RollbackOk := rollbackOk_leaveRollback

theorem rollbackOk_abortDrain : (s.abortDrain sl).RollbackOk := rollbackOk_leaveRollback

theorem rollbackOk_settle : (s.settle sl w).RollbackOk := rollbackOk_leaveRollback

theorem rollbackOk_enterBroken : (s.enterBroken sl w p failure).RollbackOk := by
  have hslot : (s.enterBroken sl w p failure).ops.slot = none := by simp [State.enterBroken]
  have hengine : (s.enterBroken sl w p failure).engine = none := by simp [State.enterBroken]
  refine ⟨fun hr => ?_, fun w hw => ?_, fun w _ hw => ?_, fun sl hsl => ?_⟩
  · simp [OpCtl.holds, hslot] at hr
  · rw [hengine] at hw
    exact nomatch hw
  · rw [hengine] at hw
    exact nomatch hw
  · rw [hslot] at hsl
    exact nomatch hsl

theorem still_enterFence (h : s.Still) : s.enterFence.Still := by
  by_cases hg : s.gate.state = .fence
  · rwa [State.enterFence_of_fence hg]
  · refine ⟨by simpa using h.1, by simpa using h.2.1, ?_⟩
    have : s.enterFence.waq = [] := by
      rw [State.enterFence_of_open hg, State.fenceRemovals_eq]
      refine List.eq_nil_iff_forall_not_mem.mpr fun e he => ?_
      obtain ⟨e', he', -, hs, hst⟩ := mem_fenced he
      rw [hs] at hst
      rcases h.states e' he' with h' | h' <;> rw [h'] at hst <;> exact hst.elim nofun nofun
    rw [this]
    rfl

theorem State.Still.closeStep (h : s.Still) : s.closeStep.Still := by
  rw [State.closeStep_of_capturesGranted (.inr h.no_captureWait)]
  exact h

section

variable (h : s.RollbackOk)

include h

theorem rollbackOk_closeStep : s.closeStep.RollbackOk :=
  h.carry (by simp) (by simp) (.of_eq (by simp)) (by simp) State.Still.closeStep

theorem rollbackOk_complete : (s.complete res why d).RollbackOk := h.carry rfl id (.of_eq rfl) rfl id

theorem rollbackOk_enterFence : s.enterFence.RollbackOk :=
  h.carry (by simp) (fun _ => .inr s.enterFence_state) (.of_eq (by simp)) (by simp) still_enterFence

theorem rollbackOk_requestSeal (hc : s.CommandOk) : (s.requestSeal src).RollbackOk := by
  by_cases hr : s.ops.holds .rollback = true
  · obtain ⟨sl, hs, hop⟩ := (Option.any_eq_true ..).mp hr
    have hop : sl.operation = .rollback := by simpa using hop
    unfold State.requestSeal
    rw [hs]
    dsimp only
    rw [hop]
    split
    · exact h.carry rfl id (.of_eq rfl) rfl id
    · exact h
  · exact State.rollbackOk_of_engine (commandOk_requestSeal hc)
      (by simpa using hc.engine_none (Bool.eq_false_iff.mpr hr))

/-- The fence opens only without a rollback (R52). -/
theorem rollbackOk_examineRelease (hc : s.CommandOk) : s.examineRelease.RollbackOk := by
  rcases s.examineRelease_cases with ⟨hdue, -⟩ | ⟨-, he⟩
  · obtain ⟨-, -, -, hr, -⟩ := s.releaseDue_iff.mp hdue
    rw [OpCtl.holdsRollback_eq] at hr
    exact State.rollbackOk_of_engine (commandOk_examineRelease hc) (by simpa using hc.engine_none hr)
  · rw [he]
    exact h

/-! ### The owners of requests -/

/-- The target of a rollback in DRAIN is examined after entries were marked or dropped (R118). -/
theorem rollbackOk_checkTarget (hp : s.PlacesOk) (hstill : ¬s.Still) (ha : t.CommandOk)
    (hslot : t.ops.holds .rollback = true → t.ops.slot = s.ops.slot ∧ t.gate.state = s.gate.state)
    (he : t.engine = s.engine)
    (ht : ∀ c ∈ t.epoch.table, ∃ c' ∈ s.epoch.table, c'.epoch = c.epoch ∧ c'.start = c.start) :
    t.checkTarget.RollbackOk := by
  have kept (hgood : ∀ sl w, t.ops.slot = some sl → t.engine = some w → sl.phase = .drain →
      targetHolds w.targetEpoch t.epoch.table = true) : t.RollbackOk := by
    by_cases hr : t.ops.holds .rollback = true
    case neg => exact State.rollbackOk_of_engine ha (ha.engine_none (Bool.eq_false_iff.mpr hr))
    obtain ⟨hsl, hg⟩ := hslot hr
    obtain ⟨sl, hslt, hop⟩ := (Option.any_eq_true ..).mp hr
    have hop : sl.operation = .rollback := by simpa using hop
    have hsls : s.ops.slot = some sl := hsl.symm.trans hslt
    have hdrain : sl.phase = .drain := by
      have := ha.phases sl hslt
      rw [hop] at this
      cases hph : sl.phase
      case drain => rfl
      case restore => exact absurd (h.restoring sl hsls hph) hstill
      all_goals
        rw [hph] at this
        exact nomatch this
    refine ⟨fun hr => ?_, fun w hw => ?_, fun w sl' hw hsl' hwalk => ?_, fun sl' hsl' hph => ?_⟩
    · rw [hg]
      refine h.rollback_holds ?_
      simp [OpCtl.holds, hsls, hop]
    · have := hgood sl w hslt hw hdrain
      obtain ⟨c, hc, hce⟩ := List.any_eq_true.mp this
      have hce : c.epoch = w.targetEpoch := by simpa using (Bool.and_eq_true_iff.mp hce).1
      obtain ⟨c', hc', hce', hcs'⟩ := ht c hc
      obtain ⟨c₀, hc₀, hce₀, hcs₀⟩ := h.target w (he ▸ hw)
      refine ⟨c, hc, hce, ?_⟩
      rw [← hcs', ← hcs₀]
      exact hp.start_of_epoch hc' hc₀ (hce'.trans (hce.trans hce₀.symm))
    · exact h.walking w sl' (he ▸ hw) (hsl ▸ hsl') hwalk
    · cases hslt.symm.trans hsl'
      rw [hdrain] at hph
      exact nomatch hph
  unfold State.checkTarget
  split
  case h_1 sl w hsl hw =>
    split
    case isTrue => exact rollbackOk_failDrain
    case isFalse hn =>
      refine kept fun sl' w' hsl' hw' hph => ?_
      cases hsl.symm.trans hsl'
      cases hw.symm.trans hw'
      have hop := ha.rollback_of_engine hw hsl
      cases hth : targetHolds w.targetEpoch t.epoch.table
      · exact absurd ⟨hop, hph, hth⟩ hn
      · rfl
  case h_2 hn =>
    exact kept fun sl w hsl hw => absurd hw (hn sl w hsl)

end

/-- A seal request leaves the slot and the gate to a rollback (R85). -/
theorem State.requestSeal_rollback (hr : (s.requestSeal src).ops.holds .rollback = true) :
    (s.requestSeal src).ops.slot = s.ops.slot ∧ (s.requestSeal src).gate.state = s.gate.state := by
  unfold State.requestSeal at hr ⊢
  split at hr
  case isTrue hm =>
    rw [if_pos hm]
    split at hr
    case h_1 => simp [OpCtl.holds, State.startGather] at hr
    case h_2 sl hs =>
      split at hr
      case h_1 hop => simp [OpCtl.holds, State.joinSeal, hs, hop] at hr
      case h_2 hop => exact ⟨rfl, rfl⟩
      case h_3 hop => exact ⟨rfl, rfl⟩
      case h_4 hop => simp [OpCtl.holds, State.startGather] at hr
  case isFalse hm =>
    rw [if_neg hm]
    exact ⟨rfl, rfl⟩

end Operations

end Sys2Proof.Machine
end

section
/-! PROOFS. The rollback in the slot through the operations that end requests. O60. -/

namespace Sys2Proof.Machine

set_option Elab.async false

/-- Every entry of the table of `t` has the epoch and the start of one of `s`. -/
def State.TableFrom (s t : State) : Prop :=
  ∀ c ∈ t.epoch.table, ∃ c' ∈ s.epoch.table, c'.epoch = c.epoch ∧ c'.start = c.start

section Operations

variable {s t u : State} {sl : Slot} {w : Walk} {q : BitVec 4} {g : BitVec 6} {rec : Record} {l : RecordLine}
  {p n : Nat} {txn : Transaction} {image header : Line} {a : MemAnswer} {r : Request} {failure : WalkFailure}
  {o o' : Owner} {x : List Owner} {src : Source} {k : EventKind} {sc : Scan}

theorem State.TableFrom.of_subset (h : ∀ c ∈ t.epoch.table, c ∈ s.epoch.table) : s.TableFrom t :=
  fun c hc => ⟨c, h c hc, rfl, rfl⟩

theorem State.TableFrom.of_map {f : Checkpoint → Checkpoint} (h : t.epoch.table = s.epoch.table.map f)
    (he : ∀ c, (f c).epoch = c.epoch) (hs : ∀ c, (f c).start = c.start) : s.TableFrom t := by
  intro c hc
  rw [h] at hc
  obtain ⟨c', hc', rfl⟩ := List.mem_map.mp hc
  exact ⟨c', hc', (he c').symm, (hs c').symm⟩

theorem State.TableFrom.trans (h : s.TableFrom t) (h' : t.TableFrom u) : s.TableFrom u := by
  intro c hc
  obtain ⟨d, hd, hde, hds⟩ := h' c hc
  obtain ⟨e, he, hee, hes⟩ := h d hd
  exact ⟨e, he, hee.trans hde, hes.trans hds⟩

theorem countRepeat_from {table : List Checkpoint} : ∀ c ∈ countRepeat table,
    ∃ c' ∈ table, c'.epoch = c.epoch ∧ c'.start = c.start := by
  rcases List.eq_nil_or_concat table with rfl | ⟨old, d, rfl⟩
  · simp
  · intro c hc
    simp only [countRepeat, modifyOpen, List.concat_eq_append, List.dropLast_concat,
      List.getLast?_append, List.getLast?_singleton] at hc
    rcases List.mem_append.mp hc with hc | hc
    · exact ⟨c, by simp [hc], rfl, rfl⟩
    · rw [List.mem_singleton.mp hc]
      exact ⟨d, by simp, rfl, rfl⟩

/-! ### Drops and the allocation leave a rollback its slot, its gate and its target's epoch and start -/

theorem tableFrom_relieveBy (q : BitVec 4) (n : Nat) : ∀ {s : State}, s.TableFrom (s.relieveBy q n) := by
  induction n with
  | zero => exact .of_subset fun _ => id
  | succ n ih =>
    intro s
    unfold State.relieveBy
    split
    · refine State.TableFrom.trans (.of_subset fun c hc => ?_) ih
      unfold State.dropOldest at hc
      split at hc
      case h_1 ht => exact ht ▸ List.mem_cons_of_mem _ hc
      case h_2 => exact hc
    · exact .of_subset fun _ => id

theorem State.relieveBy_kept (q : BitVec 4) (n : Nat) : ∀ {s : State}, (s.relieveBy q n).ops = s.ops ∧
    (s.relieveBy q n).gate = s.gate ∧ (s.relieveBy q n).engine = s.engine := by
  induction n with
  | zero => exact ⟨rfl, rfl, rfl⟩
  | succ n ih =>
    intro s
    unfold State.relieveBy
    split
    · have hd : (s.dropOldest q).ops = s.ops ∧ (s.dropOldest q).gate = s.gate ∧
          (s.dropOldest q).engine = s.engine := by
        unfold State.dropOldest
        split <;> exact ⟨rfl, rfl, rfl⟩
      obtain ⟨h1, h2, h3⟩ := ih (s := s.dropOldest q)
      exact ⟨h1.trans hd.1, h2.trans hd.2.1, h3.trans hd.2.2⟩
    · exact ⟨rfl, rfl, rfl⟩

theorem tableFrom_place : s.TableFrom (s.place txn image) := by
  have ht : (s.place txn image).epoch.table =
      if (s.newRecord txn image).repeated then countRepeat s.epoch.table else s.epoch.table := by
    simp [State.place]
  intro c hc
  rw [ht] at hc
  split at hc
  · exact countRepeat_from c hc
  · exact ⟨c, hc, rfl, rfl⟩

theorem State.place_kept : (s.place txn image).ops = s.ops ∧ (s.place txn image).gate = s.gate ∧
    (s.place txn image).engine = s.engine := by
  simp [State.place]

theorem tableFrom_allocate : s.TableFrom (s.allocate txn image) := by
  have hr : s.TableFrom (s.relieve txn.requester) := tableFrom_relieveBy txn.requester s.epoch.table.length
  have hq : s.TableFrom ((s.relieve txn.requester).requestSeal .pressure) :=
    hr.trans (.of_subset fun c hc => by simpa using hc)
  unfold State.allocate
  dsimp only
  split
  · split
    · exact hq.trans tableFrom_place
    · exact hq.trans (.of_subset fun c hc => by simpa using hc)
  · exact hr.trans tableFrom_place

theorem State.allocate_engine : (s.allocate txn image).engine = s.engine := by
  have hr : (s.relieve txn.requester).engine = s.engine := (State.relieveBy_kept ..).2.2
  unfold State.allocate
  dsimp only
  split
  · split
    · exact State.place_kept.2.2.trans (by simp [hr])
    · simp [hr]
  · exact State.place_kept.2.2.trans hr

theorem State.allocate_rollback (h : (s.allocate txn image).ops.holds .rollback = true) :
    (s.allocate txn image).ops.slot = s.ops.slot ∧ (s.allocate txn image).gate.state = s.gate.state := by
  obtain ⟨ho, hg, -⟩ := State.relieveBy_kept (s := s) txn.requester s.epoch.table.length
  change (s.relieve txn.requester).ops = s.ops at ho
  change (s.relieve txn.requester).gate = s.gate at hg
  have asked (hq : ((s.relieve txn.requester).requestSeal .pressure).ops.holds .rollback = true) :
      ((s.relieve txn.requester).requestSeal .pressure).ops.slot = s.ops.slot ∧
        ((s.relieve txn.requester).requestSeal .pressure).gate.state = s.gate.state := by
    have := State.requestSeal_rollback hq
    rwa [ho, hg] at this
  unfold State.allocate at h ⊢
  dsimp only at h ⊢
  split at h
  case isTrue hp =>
    rw [if_pos hp]
    split at h
    case isTrue hc =>
      rw [if_pos hc]
      rw [State.place_kept.1] at h
      rw [State.place_kept.1, State.place_kept.2.1]
      exact asked h
    case isFalse hc =>
      rw [if_neg hc]
      simp only [State.endCapture_fields] at h ⊢
      exact asked h
  case isFalse hp =>
    rw [if_neg hp, State.place_kept.1, State.place_kept.2.1, ho, hg]
    exact ⟨rfl, rfl⟩

/-! ### The owners of requests -/

section

variable (h : s.RollbackOk)

include h

theorem State.RollbackOk.frame (ho : t.ops = s.ops) (hg : t.gate = s.gate) (he : t.engine = s.engine)
    (ht : t.epoch.table = s.epoch.table) (hst : s.Still → t.Still) : t.RollbackOk :=
  h.carry (by rw [ho]) (by rw [hg]; exact id) (.of_eq he) ht hst

/-- What changes the WAQ or the Capture Buffer happens outside RESTORE. -/
theorem State.RollbackOk.moving (hn : ¬s.Still) (ho : t.ops = s.ops) (hg : t.gate = s.gate)
    (he : t.engine = s.engine) (ht : t.epoch.table = s.epoch.table) : t.RollbackOk :=
  h.frame ho hg he ht fun hs => absurd hs hn

theorem rollbackOk_forwardEnds : (s.forwardEnds q g r a).RollbackOk := by
  unfold State.forwardEnds
  split
  · exact h.frame rfl rfl rfl rfl id
  · split <;> exact h.frame rfl rfl rfl rfl id

omit h in
theorem State.not_still_of_entry {e : WaqEntry} (he : e ∈ s.waq) (hp : e.state ≠ .parked)
    (hw : e.state ≠ .waiting) : ¬s.Still :=
  fun hs => (hs.states e he).elim hp hw

omit h in
theorem State.not_still_of_record {c : CaptureEntry} (hc : c ∈ s.captures) : ¬s.Still := by
  intro hs
  rw [hs.1] at hc
  exact nomatch hc

theorem rollbackOk_captureRead (hp : s.PlacesOk) (hc : s.CommandOk) (hl : s.Linked (.capture q g :: x)) :
    (s.captureRead q g a).RollbackOk := by
  have hstill : ¬s.Still := by
    obtain ⟨e, he, hs, -⟩ := hl.1.captured_entry
    exact State.not_still_of_entry he (by rw [hs]; decide) (by rw [hs]; decide)
  unfold State.captureRead
  split
  case h_1 => exact h
  case h_2 e _ =>
    have ended (k : EventKind) : (s.endCapture e.txn k).RollbackOk :=
      h.moving hstill (by simp) (by simp) (by simp) (by simp)
    split
    · exact ended _
    · split
      · exact rollbackOk_checkTarget h hp hstill (commandOk_allocate hc) State.allocate_rollback
          State.allocate_engine tableFrom_allocate
      · exact ended _

theorem rollbackOk_journalFault (hp : s.PlacesOk) (hc : s.CommandOk) (hstill : ¬s.Still) :
    (s.journalFault q rec l).RollbackOk := by
  unfold State.journalFault
  dsimp only
  generalize hrep : State.report { s with epoch.table := markLost s.epoch.table } _ = rep
  have hfields : rep.ops = s.ops ∧ rep.gate = s.gate ∧ rep.engine = s.engine ∧
      rep.epoch.table = markLost s.epoch.table ∧ rep.CommandOk := by
    rw [← hrep]
    exact ⟨rfl, rfl, rfl, rfl, hc.congr rfl rfl rfl rfl rfl rfl rfl⟩
  obtain ⟨ho, hg, he, ht, hcr⟩ := hfields
  have hend : (rep.endRecord rec.position).ops = s.ops ∧ (rep.endRecord rec.position).gate = s.gate ∧
      (rep.endRecord rec.position).engine = s.engine ∧
      (rep.endRecord rec.position).epoch.table = markLost s.epoch.table := by
    obtain ⟨_, _, _, _, _, hframe⟩ := rep.endRecord_frame rec.position
    rw [hframe]
    exact ⟨ho, hg, he, ht⟩
  obtain ⟨ho', hg', he', ht'⟩ := hend
  refine rollbackOk_checkTarget h hp hstill (commandOk_requestSeal (commandOk_endRecord hcr)) (fun hr => ?_)
    (by simpa using he') 
    (State.TableFrom.of_map (f := fun c => { c with condition := .lost }) ?_ (fun _ => rfl) fun _ => rfl)
  · have := State.requestSeal_rollback hr
    rwa [ho', hg'] at this
  · simpa [markLost] using ht'

theorem rollbackOk_recordWritten (hp : s.PlacesOk) (hc : s.CommandOk) : (s.recordWritten p l a).RollbackOk := by
  unfold State.recordWritten
  split
  case h_1 => exact h
  case h_2 c hfind =>
    have hstill : ¬s.Still := State.not_still_of_record (List.mem_of_find?_eq_some hfind)
    have written (rec : Record) (l : RecordLine) (n : Nat) : (s.writeLine rec l n).RollbackOk :=
      h.moving hstill (by simp) (by simp) (by simp) (by simp)
    split
    · split
      · exact written ..
      · obtain ⟨_, _, _, _, _, hframe⟩ := s.endRecord_frame p
        rw [hframe]
        exact h.moving hstill rfl rfl rfl rfl
      · split
        · exact written ..
        · exact rollbackOk_journalFault h hp hc hstill
    · exact h

omit h in
theorem State.EngineAs.walking {w w' : Walk} (hw : s.engine = some w) (ht : t.engine = some w')
    (he : w'.targetEpoch = w.targetEpoch) (hs : w'.targetStart = w.targetStart)
    (hwalk : w'.walk ≠ none → w.walk ≠ none) : s.EngineAs t := by
  intro v hv
  cases ht.symm.trans hv
  exact ⟨w, hw, he, hs, hwalk⟩

theorem rollbackOk_restoreRead : (s.restoreRead l a).RollbackOk := by
  unfold State.restoreRead
  split
  case h_2 => exact h
  case h_1 sl w hslot hw =>
    split
    case h_1 => exact h
    case h_2 p hp =>
      have engaged {t : State} {cur : ReadPair} {m : Nat}
          (hengine : t.engine = some { w with current := cur, writeAttempt := m }) (ho : t.ops = s.ops)
          (hg : t.gate = s.gate) (ht : t.epoch.table = s.epoch.table) (hst : s.Still → t.Still) :
          t.RollbackOk :=
        h.carry (by rw [ho]) (by rw [hg]; exact id) (.walking hw hengine rfl rfl id) ht hst
      dsimp only
      split
      · exact engaged rfl rfl rfl rfl id
      · exact rollbackOk_enterBroken
      · split
        · unfold State.checkRecord
          split
          · exact engaged rfl rfl rfl rfl id
          · exact rollbackOk_enterBroken
        · exact engaged rfl rfl rfl rfl id

theorem rollbackOk_restoreWritten : (s.restoreWritten a).RollbackOk := by
  unfold State.restoreWritten
  split
  case h_2 => exact h
  case h_1 sl w hslot hw =>
    split
    case h_2 => exact h
    case h_1 p _ _ hp _ _ =>
      split
      · unfold State.restored
        dsimp only
        split
        · exact rollbackOk_settle
        · exact h.carry rfl id (.walking hw rfl rfl rfl fun _ => by rw [hp]; exact nofun) rfl id
      · split
        · exact h.carry rfl id (.walking hw rfl rfl rfl id) rfl id
        · exact rollbackOk_enterBroken

omit h in
theorem State.scanOn_engine : (s.scanOn sc).engine = s.engine := by
  unfold State.scanOn State.completeScan
  dsimp only
  split
  · simp
  · rfl

theorem rollbackOk_verifyRead (hc : s.CommandOk) : (s.verifyRead l a).RollbackOk := by
  cases hscan : s.scan with
  | none =>
    unfold State.verifyRead
    rw [hscan]
    exact h
  | some sc =>
    have hn : s.engine = none := by
      obtain ⟨sl, hs, hop⟩ := (Option.any_eq_true ..).mp (hc.scan_runs.symm.trans (by rw [hscan]; rfl))
      exact hc.engine_none (by simp_all [OpCtl.holds])
    refine State.rollbackOk_of_engine (commandOk_verifyRead hc) ?_
    unfold State.verifyRead
    rw [hscan]
    dsimp only
    split
    · exact hn
    · split
      · unfold State.takeScanned
        dsimp only
        split
        · exact State.scanOn_engine.trans hn
        · refine State.scanOn_engine.trans ?_
          split <;> exact hn
      · exact hn

theorem rollbackOk_inspectRead : (s.inspectRead l a).RollbackOk := by
  unfold State.inspectRead
  split
  · exact h
  · dsimp only
    split
    · exact h.frame rfl rfl rfl rfl id
    · split
      · exact h.carry rfl id (.of_eq rfl) rfl id
      · exact h.frame rfl rfl rfl rfl id

theorem rollbackOk_ownerActs (hp : s.PlacesOk) (hc : s.CommandOk) (hl : s.Linked (r.owner :: x)) :
    (s.ownerActs r a).RollbackOk := by
  unfold State.ownerActs
  split
  case h_1 q g ho =>
    rw [ho] at hl
    obtain ⟨e, he, hs, -⟩ := hl.1.issued_entry
    have hstill : ¬s.Still := State.not_still_of_entry he (by rw [hs]; decide) (by rw [hs]; decide)
    exact rollbackOk_forwardEnds (h.moving hstill rfl rfl rfl rfl)
  case h_2 => exact rollbackOk_forwardEnds h
  case h_3 ho => exact rollbackOk_captureRead h hp hc (ho ▸ hl)
  case h_4 => exact rollbackOk_recordWritten h hp hc
  case h_5 => exact rollbackOk_recordWritten h hp hc
  case h_6 => exact rollbackOk_restoreRead h
  case h_7 => exact rollbackOk_restoreRead h
  case h_8 => exact rollbackOk_restoreWritten h
  case h_9 => exact rollbackOk_verifyRead h hc
  case h_10 => exact rollbackOk_verifyRead h hc
  case h_11 => exact rollbackOk_inspectRead h
  case h_12 => exact rollbackOk_inspectRead h
  case h_13 => exact h

end

end Operations

end Sys2Proof.Machine
end

section
/-! PROOFS. The rollback in the slot through every step, and the Checkpoint Table with the journal positions. O60. -/

namespace Sys2Proof.Machine

set_option Elab.async false

section Steps

variable {s t : State} {sl : Slot} {w : Walk} {q : BitVec 4} {g : BitVec 6} {txn : Transaction} {a : MemAnswer}
  {r : Request} {src : Source} {n tie : Nat} {i : BitVec 8} {c : Checkpoint} {bytes : List Byte} {why : Reason}
  {trigger : Trigger} {op : Operation} {sources : SealSources} {cmd moved : Bool} {cause : ReleaseCause}

/-- A rollback starts in DRAIN, with the gate closed and no walk (R115). -/
theorem State.rollbackOk_of_drain (hs : t.ops.slot = some sl) (hp : sl.phase = .drain)
    (hg : t.gate.state = .holdAll ∨ t.gate.state = .fence) (hw : t.engine = some w) (hn : w.walk = none)
    (ht : ∃ c ∈ t.epoch.table, c.epoch = w.targetEpoch ∧ c.start = w.targetStart) : t.RollbackOk := by
  refine ⟨fun _ => hg, fun v hv => ?_, fun v _ hv _ hwalk => ?_, fun sl' hsl hph => ?_⟩
  · cases hw.symm.trans hv
    exact ht
  · cases hw.symm.trans hv
    exact absurd hn hwalk
  · cases hs.symm.trans hsl
    rw [hp] at hph
    exact nomatch hph

theorem State.rollbackOk_of_enterDrain (hs : t.ops.slot = (s.enterDrain src trigger c cmd moved).ops.slot)
    (he : t.engine = (s.enterDrain src trigger c cmd moved).engine)
    (hg : t.gate.state = .holdAll ∨ t.gate.state = .fence) (ht : c ∈ t.epoch.table) : t.RollbackOk :=
  State.rollbackOk_of_drain hs rfl hg he rfl ⟨c, ht, rfl, rfl⟩

theorem faultTarget_mem {counter depth : Nat} {table : List Checkpoint}
    (h : faultTarget counter depth table = some c) : c ∈ table := by
  unfold faultTarget at h
  split at h
  · exact nomatch h
  · exact List.mem_of_mem_drop (List.mem_of_find?_eq_some h)

theorem targetEntry_mem {target : Nat} (h : s.targetEntry target = some c) : c ∈ s.epoch.table := by
  unfold State.targetEntry State.openEntry at h
  split at h
  · exact List.mem_of_getLast? h
  · exact List.mem_of_find?_eq_some h

/-! ### The steps of the data path -/

section

variable (h : s.RollbackOk)

include h

theorem rollbackOk_acceptTransaction (hc : s.CommandOk) : (s.acceptTransaction txn).RollbackOk := by
  have routed (hg : s.gate.state ≠ .holdAll) (hf : s.gate.state ≠ .fence)
      (ht : (s.acceptTransaction txn).engine = s.engine) : (s.acceptTransaction txn).RollbackOk := by
    refine State.rollbackOk_of_engine (commandOk_acceptTransaction hc) (ht.trans (hc.engine_none ?_))
    exact Bool.eq_false_iff.mpr fun hr => (h.rollback_holds hr).elim hg hf
  have hengine : (s.routeTransaction txn).engine = s.engine := by
    unfold State.routeTransaction
    split
    · simp [State.enterWaq]
    · split
      · simp [State.enterWaq]
      · rfl
  unfold State.acceptTransaction at routed ⊢
  split
  · exact h
  · split
    · exact h.frame rfl rfl rfl rfl id
    · rename_i hb hfit
      rw [if_neg hb, if_neg hfit] at routed
      split
      · exact h.frame rfl rfl rfl rfl id
      · exact h
      · rename_i hg
        rw [hg] at routed
        exact routed nofun nofun (by simpa using hengine)
      · rename_i hg
        rw [hg] at routed
        exact routed nofun nofun (by simpa using hengine)

theorem rollbackOk_grant (hl : s.Linked []) : (s.grant i tie).RollbackOk := by
  unfold State.grant
  split
  case isFalse => exact h
  case isTrue =>
    split
    case h_1 => exact h
    case h_2 r hr =>
      refine rollbackOk_closeStep ?_
      unfold State.issue
      split
      case h_2 => exact h.frame rfl rfl rfl rfl id
      case h_1 q g ho =>
        have hready : (q, g) ∈ keysIn s.waq .ready := by
          refine (hl.1.ready.mem_iff (a := (q, g))).mp ?_
          exact List.mem_filterMap.mpr ⟨_, List.mem_map.mpr ⟨r, MPort.choice_mem hr, ho⟩, rfl⟩
        obtain ⟨e, he, hs, -⟩ := mem_keysIn.mp hready
        exact h.moving (State.not_still_of_entry he (by rw [hs]; decide) (by rw [hs]; decide)) (by simp)
          (by simp) (by simp) (by simp)

theorem rollbackOk_portAnswer (hn : (s.mport.outstanding.map (·.ident)).Nodup) (hp : s.PlacesOk)
    (hc : s.CommandOk) (hl : s.Linked []) : (s.portAnswer i a).RollbackOk := by
  unfold State.portAnswer
  split
  case h_1 r hr =>
    refine rollbackOk_closeStep (rollbackOk_ownerActs (s := s.freeRequest i) ?_ ?_ ?_ (linked_freeRequest hn hr hl))
    · exact h.frame rfl rfl rfl rfl id
    · exact hp.congr rfl rfl rfl
    · exact hc.congr rfl rfl rfl rfl rfl rfl rfl
  case h_2 => exact h.frame rfl rfl rfl rfl id

theorem rollbackOk_timeOut (hn : (s.mport.outstanding.map (·.ident)).Nodup) (hp : s.PlacesOk)
    (hc : s.CommandOk) (hl : s.Linked []) : (s.timeOut i).RollbackOk := by
  unfold State.timeOut
  split
  case h_1 r hr =>
    have hlinked : ((s.freeRequest i).withhold i).Linked [r.owner] :=
      (linked_freeRequest hn hr hl).congr rfl (.of_eq rfl rfl)
    refine rollbackOk_closeStep (rollbackOk_ownerActs (s := (s.freeRequest i).withhold i) ?_ ?_ ?_ hlinked)
    · exact h.frame rfl rfl rfl rfl id
    · exact hp.congr rfl rfl rfl
    · exact hc.congr rfl rfl rfl rfl rfl rfl rfl
  case h_2 => exact h

theorem rollbackOk_epochTimerExpiry (hc : s.CommandOk) : s.epochTimerExpiry.RollbackOk := by
  unfold State.epochTimerExpiry
  split
  case h_2 => exact h
  case h_3 => exact h
  case h_1 =>
    unfold State.timerExpires
    split
    · exact h.frame rfl rfl rfl rfl id
    · split
      · exact h.carry rfl id (.of_eq rfl) rfl id
      · exact rollbackOk_requestSeal (h.frame rfl rfl rfl rfl id) (hc.congr rfl rfl rfl rfl rfl rfl rfl)

theorem rollbackOk_gatherEnds (hc : s.CommandOk) : s.gatherEnds.RollbackOk := by
  by_cases hr : s.ops.holds .rollback = true
  · obtain ⟨sl, hs, hop⟩ := (Option.any_eq_true ..).mp hr
    have hop : sl.operation = .rollback := by simpa using hop
    unfold State.gatherEnds
    rw [hs]
    dsimp only
    rw [hop]
    exact h
  · have hn := hc.engine_none (Bool.eq_false_iff.mpr hr)
    refine State.rollbackOk_of_engine (commandOk_gatherEnds hc) ?_
    unfold State.gatherEnds
    split
    · exact hn
    · split
      · split
        · split
          · simpa [State.commit] using hn
          · simpa [State.limitEnd] using hn
        · exact hn
      · split
        · simpa [State.discard] using hn
        · exact hn
      · exact hn
      · exact hn

theorem rollbackOk_drainEnds : s.drainEnds.RollbackOk := by
  unfold State.drainEnds
  split
  case h_2 => exact h
  case h_1 sl w hs hw =>
    split
    case isFalse => exact h
    case isTrue hd =>
      obtain ⟨hop, -, hdone⟩ := hd
      obtain ⟨hdrained, hcap, hwritten, -⟩ := State.drainDone_iff.mp hdone
      refine rollbackOk_closeStep ?_
      split
      · exact rollbackOk_settle
      · have hslot : (s.beginRestore w).ops.slot = some { sl with phase := .restore } :=
          congrArg (Option.map _) hs
        refine ⟨fun _ => h.rollback_holds (by simp [OpCtl.holds, hs, hop]), fun w' hw' => ?_,
          fun _ sl' _ hsl' _ => ?_, fun _ _ _ => ⟨hcap, hwritten, hdrained⟩⟩
        · cases hw'
          exact h.target w hw
        · cases hslot.symm.trans hsl'
          rfl

omit h in
theorem rollbackOk_startFaultRollback (hmem : c ∈ s.epoch.table) :
    (s.displace.startFaultRollback c).RollbackOk := by
  unfold State.startFaultRollback
  refine State.rollbackOk_of_enterDrain (s := s.displace) (c := c) (src := .fault) (trigger := .fault)
    (cmd := false) (moved := false) (by simp) (by simp) (.inr (State.enterFence_state _)) ?_
  simpa [State.enterDrain] using hmem

theorem rollbackOk_faultJournaling : s.faultJournaling.RollbackOk := by
  unfold State.faultJournaling State.reportFault
  dsimp only
  split
  · refine rollbackOk_enterFence (h.carry ?_ id (.of_eq rfl) rfl id)
    exact (Option.map_map ..).trans rfl
  · split
    · refine State.RollbackOk.carry (rollbackOk_enterFence ?_) rfl id (.of_eq rfl) rfl id
      exact h.frame rfl rfl rfl rfl id
    case h_2 c hc => exact rollbackOk_startFaultRollback (faultTarget_mem hc)

theorem rollbackOk_faultRises : s.faultRises.RollbackOk := by
  unfold State.faultRises State.dispatchFault State.reportFault
  dsimp only
  split
  · exact h
  · split
    · split
      · refine State.RollbackOk.carry (rollbackOk_enterFence ?_) rfl id (.of_eq rfl) rfl id
        exact h.carry rfl id (.of_eq rfl) rfl id
      · exact rollbackOk_faultJournaling (h.carry rfl id (.of_eq rfl) rfl id)
      · exact h.carry rfl id (.of_eq rfl) rfl id
    · exact h.frame rfl rfl rfl rfl id

theorem rollbackOk_faultFalls (hc : s.CommandOk) : s.faultFalls.RollbackOk := by
  unfold State.faultFalls
  split
  · exact rollbackOk_examineRelease (h.frame rfl rfl rfl rfl id) (hc.congr rfl rfl rfl rfl rfl rfl rfl)
  · exact h

theorem rollbackOk_armRelease : (s.armRelease cause).RollbackOk := by
  unfold State.armRelease
  split
  · exact h
  · exact h.carry rfl id (.of_eq rfl) rfl id

theorem rollbackOk_fenceTimerExpires (hc : s.CommandOk) : s.fenceTimerExpires.RollbackOk := by
  unfold State.fenceTimerExpires
  split
  · exact h
  · exact rollbackOk_examineRelease (rollbackOk_armRelease (h.carry rfl id (.of_eq rfl) rfl id))
      (commandOk_armRelease (hc.congr rfl rfl rfl rfl rfl rfl rfl))

theorem rollbackOk_abortWritten (hc : s.CommandOk) : s.abortWritten.RollbackOk := by
  by_cases hr : s.ops.holds .rollback = true
  · have pending : State.RollbackOk { s with ops := { s.ops with abortPending := true } } :=
      h.carry rfl id (.of_eq rfl) rfl id
    obtain ⟨sl, hs, hop⟩ := (Option.any_eq_true ..).mp hr
    have hop : sl.operation = .rollback := by simpa using hop
    unfold State.abortWritten State.honourAbort
    split
    · exact h
    · split
      · exact h
      · split
        case h_1 => exact pending
        case h_2 sl' hs' =>
          cases hs.symm.trans hs'
          rw [hop]
          dsimp only
          split
          · exact rollbackOk_closeStep rollbackOk_abortDrain
          · exact pending
  · have hn := hc.engine_none (Bool.eq_false_iff.mpr hr)
    refine State.rollbackOk_of_engine (commandOk_abortWritten hc) ?_
    unfold State.abortWritten
    split
    · exact hn
    · split
      · exact hn
      · unfold State.honourAbort
        split
        · exact hn
        · split <;> split
          · simpa [State.abortGather] using hn
          · exact hn
          · simpa [State.abortGather] using hn
          · exact hn
          · simp [State.abortDrain, State.leaveRollback]
          · exact hn
          · simpa using hn
          · exact hn

theorem rollbackOk_writeTimerCtl (hc : s.CommandOk) : (s.writeTimerCtl bytes).RollbackOk := by
  unfold State.writeTimerCtl
  dsimp only
  split
  · exact rollbackOk_requestSeal (h.frame rfl rfl rfl rfl id) (hc.congr rfl rfl rfl rfl rfl rfl rfl)
  · exact h.frame rfl rfl rfl rfl id

/-! ### The mailbox's commands -/

theorem rollbackOk_reject : (s.reject why).RollbackOk := rollbackOk_complete h

theorem rollbackOk_setJournal (hc : s.uncommanded.CommandOk) (hm : s.ModesOk) : s.setJournal.RollbackOk := by
  by_cases hp : s.epoch.mode = .passthrough
  · have hn : s.engine = none :=
      hc.engine_none_of_slot (hm.no_operation (by rw [hp]; decide)).1
    refine State.rollbackOk_of_engine (commandOk_setJournal hc) ?_
    unfold State.setJournal
    rw [if_pos hp]
    dsimp only
    split <;> exact hn
  · unfold State.setJournal
    rw [if_neg hp]
    exact rollbackOk_reject h

theorem rollbackOk_setRegion : s.setRegion.RollbackOk := by
  unfold State.setRegion
  dsimp only
  split
  · exact rollbackOk_complete h
  · rw [State.copyIfIdle_eq]
    exact h.carry rfl id (.of_eq rfl) rfl id

theorem rollbackOk_setPolicy : s.setPolicy.RollbackOk := by
  unfold State.setPolicy
  dsimp only
  split
  · exact rollbackOk_complete h
  · rw [State.copyIfIdle_eq]
    exact h.carry rfl id (.of_eq rfl) rfl id

theorem rollbackOk_startJournaling (hc : s.uncommanded.CommandOk) (hm : s.ModesOk) :
    s.startJournaling.RollbackOk := by
  by_cases hp : s.epoch.mode = .passthrough
  · have hn : s.engine = none :=
      hc.engine_none_of_slot (hm.no_operation (by rw [hp]; decide)).1
    refine State.rollbackOk_of_engine (commandOk_startJournaling hc) ?_
    unfold State.startJournaling
    rw [hp]
    dsimp only
    split
    · simp [State.complete, State.report, hn]
    · exact hn
  · unfold State.startJournaling
    split
    · exact rollbackOk_reject h
    · exact rollbackOk_reject h
    · exact absurd ‹_› hp

theorem rollbackOk_stopJournaling (hc : s.uncommanded.CommandOk) (hcmd : s.mailbox.cmd ≠ 0) :
    s.stopJournaling.RollbackOk := by
  cases hs : s.ops.slot with
  | none =>
    have hn : s.engine = none := hc.engine_none_of_slot hs
    refine State.rollbackOk_of_engine (commandOk_stopJournaling hc hcmd) ?_
    unfold State.stopJournaling
    rw [hs]
    split <;> exact hn
  | some sl =>
    unfold State.stopJournaling
    rw [hs]
    split <;> exact rollbackOk_complete h

theorem rollbackOk_sealEpoch (hc : s.uncommanded.CommandOk) (hcmd : s.mailbox.cmd ≠ 0) :
    s.sealEpoch.RollbackOk := by
  by_cases hr : s.ops.holds .rollback = true
  · obtain ⟨sl, hs, hop⟩ := (Option.any_eq_true ..).mp hr
    have hop : sl.operation = .rollback := by simpa using hop
    unfold State.sealEpoch
    rw [hs]
    dsimp only
    rw [hop]
    split <;> exact rollbackOk_complete h
  · have hn : s.engine = none := hc.engine_none (Bool.eq_false_iff.mpr hr)
    refine State.rollbackOk_of_engine (commandOk_sealEpoch hc hcmd) ?_
    unfold State.sealEpoch
    split
    · exact hn
    · exact hn
    · split
      · exact hn
      · split <;> exact hn

omit h in
theorem rollbackOk_startCommandRollback (hmem : c ∈ s.epoch.table) : (s.startCommandRollback c).RollbackOk := by
  unfold State.startCommandRollback
  dsimp only
  split
  case isTrue => exact State.rollbackOk_of_drain rfl rfl (.inl rfl) rfl rfl ⟨c, hmem, rfl, rfl⟩
  case isFalse hg =>
    refine State.rollbackOk_of_drain rfl rfl ?_ rfl rfl ⟨c, hmem, rfl, rfl⟩
    change s.gate.state = .holdAll ∨ s.gate.state = .fence
    cases hstate : s.gate.state
    case holdAll => exact .inl rfl
    case fence => exact .inr rfl
    all_goals
      rw [hstate] at hg
      exact absurd rfl hg

theorem rollbackOk_rollbackTo : s.rollbackTo.RollbackOk := by
  unfold State.rollbackTo
  split
  · exact rollbackOk_reject h
  · exact rollbackOk_reject h
  · split
    · split
      case h_1 => exact rollbackOk_reject h
      case h_2 c hc =>
        have hmem : c ∈ s.epoch.table := targetEntry_mem hc
        split
        · exact rollbackOk_reject h
        · exact rollbackOk_reject h
        · unfold State.requestRollback
          split
          · exact rollbackOk_startCommandRollback hmem
          · split
            · exact rollbackOk_startCommandRollback (by simpa using hmem)
            all_goals exact rollbackOk_complete h
    · exact rollbackOk_reject h

theorem rollbackOk_verifyJournal (hc : s.uncommanded.CommandOk) (hcmd : s.mailbox.cmd ≠ 0) :
    s.verifyJournal.RollbackOk := by
  cases hs : s.ops.slot with
  | none =>
    have hn : s.engine = none := hc.engine_none_of_slot hs
    refine State.rollbackOk_of_engine (commandOk_verifyJournal hc hcmd) ?_
    unfold State.verifyJournal State.startScan
    rw [hs]
    split
    · exact hn
    · exact hn
    · simpa [State.scanOn_engine] using hn
  | some sl =>
    unfold State.verifyJournal
    rw [hs]
    split <;> exact rollbackOk_complete h

theorem rollbackOk_releaseFence (hc : s.uncommanded.CommandOk) : s.releaseFence.RollbackOk := by
  by_cases hr : s.ops.holds .rollback = true
  · have armed := rollbackOk_armRelease h (cause := .command)
    have closed : (s.armRelease .command).examineRelease = s.armRelease .command := by
      rcases (s.armRelease .command).examineRelease_cases with ⟨hdue, -⟩ | ⟨-, he⟩
      · obtain ⟨-, -, -, hn, -⟩ := State.releaseDue_iff _ |>.mp hdue
        rw [OpCtl.holdsRollback_eq] at hn
        simp [hr] at hn
      · exact he
    unfold State.releaseFence
    split
    · exact rollbackOk_reject h
    · dsimp only
      rw [closed]
      split
      · exact rollbackOk_complete armed
      · exact rollbackOk_complete h
  · have hn : s.engine = none := hc.engine_none (Bool.eq_false_iff.mpr hr)
    refine State.rollbackOk_of_engine (commandOk_releaseFence hc) ?_
    unfold State.releaseFence
    split
    · exact hn
    · dsimp only
      split
      · simpa [State.complete, State.report] using hn
      · exact hn

theorem rollbackOk_recoverPart (hc : s.uncommanded.CommandOk) (hm : s.ModesOk) : s.recoverPart.RollbackOk := by
  by_cases hb : s.epoch.mode = .broken
  · have hn : s.engine = none := hc.engine_none_of_slot (hm.no_operation (by rw [hb]; decide)).1
    refine State.rollbackOk_of_engine (commandOk_recoverPart hc) ?_
    unfold State.recoverPart
    rw [hb]
    simpa [State.complete, State.report] using hn
  · unfold State.recoverPart
    split
    · exact rollbackOk_reject h
    · exact rollbackOk_reject h
    · exact absurd ‹_› hb

theorem rollbackOk_readRecordAt : s.readRecordAt.RollbackOk := by
  unfold State.readRecordAt
  split
  · exact rollbackOk_reject h
  · dsimp only
    split
    · exact rollbackOk_closeStep (h.frame rfl rfl rfl rfl id)
    · exact rollbackOk_reject h

theorem rollbackOk_taken {code : Byte} : (s.taken code).RollbackOk := h.frame rfl rfl rfl rfl id

end

end Steps

/-! ### The ledger -/

/-- What the table's step lemma takes for granted of a state. -/
structure State.Whole (s : State) : Prop where
  resources : s.ResourcesOk
  modes : s.ModesOk
  command : s.CommandOk
  linked : s.Linked []
  ledger : s.LedgerOk

section Ledger

variable {s t : State}

theorem State.ledgerOk_of (hc : s.CoreOk []) (hl : s.Linked []) (hr : s.RollbackOk) : s.LedgerOk where
  positions := hc.places.positions
  depth := hc.places.depth
  table := hc.places.table
  starts := hc.places.starts
  passthrough := hc.places.passthrough
  no_capture hm := (hc.idle hm).1
  reading := hc.reads.trans hl.1.capturing
  records_once := hc.places.records_once
  records_between := hc.places.records_between
  rollback_holds := hr.rollback_holds
  target := hr.target
  walking := hr.walking
  restoring := hr.restoring

theorem State.LedgerOk.rollback (h : s.LedgerOk) : s.RollbackOk :=
  ⟨h.rollback_holds, h.target, h.walking, h.restoring⟩

theorem State.Whole.core (h : s.Whole) : s.CoreOk [] where
  places := {
    positions := h.ledger.positions
    depth := h.ledger.depth
    table := h.ledger.table
    starts := h.ledger.starts
    passthrough := h.ledger.passthrough
    no_epoch := fun hm => (h.modes.no_epoch hm).1
    records_once := h.ledger.records_once
    records_between := h.ledger.records_between }
  idle hm := ⟨h.ledger.no_capture hm, h.resources.no_captureWait (h.ledger.no_capture hm)⟩
  reads := h.ledger.reading.trans h.linked.1.capturing.symm

theorem State.Whole.still (h : s.Whole) : ∀ w p sl, s.engine = some w → w.walk = some p →
    s.ops.slot = some sl → s.Still := fun w p sl hw hp hs =>
  h.ledger.restoring sl hs (h.ledger.walking w sl hw hs (by rw [hp]; exact nofun))

theorem State.Whole.nodup (h : s.Whole) : (s.mport.outstanding.map (·.ident)).Nodup :=
  h.resources.outstanding_nodup

/-- Neither the command queue nor the port's index and pointer count. -/
theorem State.Whole.frame (h : s.Whole) (hres : t.ResourcesOk) (hmodes : t.ModesOk) (hcmd : t.CommandOk)
    (hw : t.waq = s.waq) (hm : t.mport = s.mport) (hj : t.journal = s.journal) (he : t.epoch = s.epoch)
    (hc : t.captures = s.captures) (ho : t.ops = s.ops) (hg : t.gate = s.gate) (hn : t.engine = s.engine) :
    t.Whole where
  resources := hres
  modes := hmodes
  command := hcmd
  linked := h.linked.frame hw hm
  ledger := State.ledgerOk_of (h.core.frame hj he hc hw hm) (h.linked.frame hw hm)
    (h.ledger.rollback.frame ho hg hn (by rw [he]) fun hs => by rwa [State.Still, hc, hj, hw])

end Ledger

/-- What each command does to the rollback in the slot. -/
theorem rollback_stepKeeps : StepKeeps State.Whole State.RollbackOk where
  keep h := h.ledger.rollback
  pending _ h := h.frame (resourcesOk_stepKeeps.pending _ h.resources) (modesOk_stepKeeps.pending _ h.modes)
    (commandOk_stepKeeps.pending _ h.command) rfl rfl rfl rfl rfl rfl rfl rfl
  select _ _ h := h.frame (resourcesOk_stepKeeps.select _ _ h.resources) (modesOk_stepKeeps.select _ _ h.modes)
    (commandOk_stepKeeps.select _ _ h.command) rfl rfl rfl rfl rfl rfl rfl rfl
  tick _ h := h.ledger.rollback.carry rfl id (.of_eq rfl) rfl id
  reset s phase recovery hr := State.rollbackOk_of_engine (commandOk_stepKeeps.reset s phase recovery hr) rfl
  phase _ h := h.ledger.rollback.frame rfl rfl rfl rfl id
  endReset _ _ _ _ h := h.ledger.rollback.frame rfl rfl rfl rfl id
  acceptTransaction _ h := rollbackOk_acceptTransaction h.ledger.rollback h.command
  grant _ _ h := rollbackOk_grant h.ledger.rollback h.linked
  portAnswer _ _ h := rollbackOk_portAnswer h.ledger.rollback h.nodup h.core.places h.command h.linked
  timeOut _ h := rollbackOk_timeOut h.ledger.rollback h.nodup h.core.places h.command h.linked
  freeIdent _ h := h.ledger.rollback.frame rfl rfl rfl rfl id
  epochTimerExpiry h := rollbackOk_epochTimerExpiry h.ledger.rollback h.command
  gatherEnds h := rollbackOk_gatherEnds h.ledger.rollback h.command
  drainEnds h := rollbackOk_drainEnds h.ledger.rollback
  faultRises h := rollbackOk_faultRises h.ledger.rollback
  faultFalls h := rollbackOk_faultFalls h.ledger.rollback h.command
  fenceTimerExpires h := rollbackOk_fenceTimerExpires h.ledger.rollback h.command
  refuseCommand _ h := h.ledger.rollback.frame rfl rfl rfl rfl id
  setJournal h hc _ := rollbackOk_setJournal (rollbackOk_taken h.ledger.rollback) (h.command.taken hc _)
    (modesOk_taken h.modes)
  setRegion h _ _ := rollbackOk_setRegion (rollbackOk_taken h.ledger.rollback)
  setPolicy h _ _ := rollbackOk_setPolicy (rollbackOk_taken h.ledger.rollback)
  startJournaling h hc _ := rollbackOk_startJournaling (rollbackOk_taken h.ledger.rollback)
    (h.command.taken hc _) (modesOk_taken h.modes)
  stopJournaling h hc hn := rollbackOk_stopJournaling (rollbackOk_taken h.ledger.rollback)
    (h.command.taken hc _) hn
  sealEpoch h hc hn := rollbackOk_sealEpoch (rollbackOk_taken h.ledger.rollback) (h.command.taken hc _) hn
  rollbackTo h _ _ := rollbackOk_rollbackTo (rollbackOk_taken h.ledger.rollback)
  verifyJournal h hc hn := rollbackOk_verifyJournal (rollbackOk_taken h.ledger.rollback)
    (h.command.taken hc _) hn
  releaseFence h hc _ := rollbackOk_releaseFence (rollbackOk_taken h.ledger.rollback) (h.command.taken hc _)
  recoverPart h hc _ := rollbackOk_recoverPart (rollbackOk_taken h.ledger.rollback) (h.command.taken hc _)
    (modesOk_taken h.modes)
  readTable h _ _ := rollbackOk_complete (rollbackOk_taken h.ledger.rollback)
  readRecordAt h _ _ := rollbackOk_readRecordAt (rollbackOk_taken h.ledger.rollback)
  rejectCode h _ _ := rollbackOk_reject (rollbackOk_taken h.ledger.rollback)
  abortWritten h := rollbackOk_abortWritten h.ledger.rollback h.command
  writeTimerCtl _ h := rollbackOk_writeTimerCtl h.ledger.rollback h.command
  writeEventAck _ h := h.ledger.rollback.frame rfl rfl rfl rfl id
  writeAlertMask _ h := h.ledger.rollback.frame rfl rfl rfl rfl id
  writeParam _ h := h.ledger.rollback.frame rfl rfl rfl rfl id

/-- What each command does to the positions, the records and the captures. -/
theorem core_stepKeeps : StepKeeps State.Whole (State.CoreOk []) where
  keep h := h.core
  pending := rollback_stepKeeps.pending
  select := rollback_stepKeeps.select
  tick p h := core_tick h.core p
  reset _ _ _ _ := State.CoreOk.frame
    (State.Whole.core ⟨State.reset_resourcesOk, State.reset_modesOk, State.reset_commandOk,
      State.requestsOk_iff.mp State.reset_requestsOk, State.reset_ledgerOk⟩) rfl rfl rfl rfl rfl
  phase _ h := h.core.frame rfl rfl rfl rfl rfl
  endReset _ _ _ _ h := h.core.frame rfl rfl rfl rfl rfl
  acceptTransaction _ h := core_acceptTransaction h.core
  grant _ _ h := core_grant h.core
  portAnswer _ _ h := core_portAnswer h.core h.nodup h.linked h.still h.ledger.target
  timeOut _ h := core_timeOut h.core h.nodup h.linked h.still h.ledger.target
  freeIdent _ h := core_freeIdent h.core
  epochTimerExpiry h := core_epochTimerExpiry h.core
  gatherEnds h := core_gatherEnds h.core h.resources h.modes
  drainEnds h := core_drainEnds h.core h.ledger.target
  faultRises h := core_faultRises h.core
  faultFalls h := core_faultFalls h.core
  fenceTimerExpires h := core_fenceTimerExpires h.core
  refuseCommand _ h := core_report h.core
  setJournal h _ _ := core_setJournal (core_taken h.core)
  setRegion h _ _ := core_setRegion (core_taken h.core)
  setPolicy h _ _ := core_setPolicy (core_taken h.core)
  startJournaling h _ _ := core_startJournaling (core_taken h.core)
  stopJournaling h _ _ := core_stopJournaling (core_taken h.core)
  sealEpoch h _ _ := core_sealEpoch (core_taken h.core)
  rollbackTo h _ _ := core_rollbackTo (core_taken h.core)
  verifyJournal h _ _ := core_verifyJournal (core_taken h.core)
  releaseFence h _ _ := core_releaseFence (core_taken h.core)
  recoverPart h _ _ := core_recoverPart (core_taken h.core)
  readTable h _ _ := core_complete (core_taken h.core)
  readRecordAt h _ _ := core_readRecordAt (core_taken h.core)
  rejectCode h _ _ := core_reject (core_taken h.core)
  abortWritten h := core_abortWritten h.core
  writeTimerCtl _ h := core_writeTimerCtl h.core
  writeEventAck _ h := h.core.frame rfl rfl rfl rfl rfl
  writeAlertMask _ h := h.core.frame rfl rfl rfl rfl rfl
  writeParam _ h := h.core.frame rfl rfl rfl rfl rfl

/-- Settles O60: the positions and the records (`State.CoreOk`), the requests of the captures (`State.Linked`) and
the rollback in the slot (`State.RollbackOk`) are each kept where all the invariants hold. -/
theorem everyStepKeepsTheTable : Obligations.EveryStepKeepsTheTable := by
  intro s t hres hmodes hcmd hreq hledger ht
  have hwhole : s.Whole := ⟨hres, hmodes, hcmd, State.requestsOk_iff.mp hreq, hledger⟩
  exact State.ledgerOk_of (core_stepKeeps.step hwhole ht)
    (linked_stepKeeps.step ⟨hwhole.linked, hwhole.nodup⟩ ht) (rollback_stepKeeps.step hwhole ht)

end Sys2Proof.Machine
end

section
/-! PROOFS. The acceptance of a transaction and the end of a FORWARD request. O6, O7, O8, O12, O13. -/

namespace Sys2Proof.Machine

set_option Elab.async false

section

variable {s u : State} {t : Transaction} {e : WaqEntry} {q : BitVec 4} {g : BitVec 6} {st : WaqState}
  {ident : BitVec 8} {r : Request} {a : MemAnswer}

/-! ### Acceptance -/

theorem exec_accept (h : s.resetPhase = .running) (t : Transaction) :
    exec (.pTransactionAccept t) s = .next (s.acceptTransaction t) :=
  whileRunning_running h (·.acceptTransaction t)

theorem State.backPressure_iff : s.backPressure = true ↔
    s.gate.state = .holdAll ∨ s.gate.state ≠ .fence ∧ 32 ≤ s.waq.length := by
  simp only [State.backPressure, Bool.or_eq_true, Bool.and_eq_true, beq_iff_eq, bne_iff_ne, decide_eq_true_eq]
  exact Iff.rfl

theorem State.transactionFits_iff : s.transactionFits t = true ↔
    1 ≤ t.size ∧ offsetOf t.addr + t.size ≤ 64 ∧ s.tagInUse t.requester t.tag = false := by
  simp [State.transactionFits, and_assoc]

theorem refusalKind_eq (k : Access) : refusalKind k = if k = .write then .writeRefused else .memoryError := by
  cases k <;> rfl

/-- A refusal is its answer and its event (R47). -/
theorem State.refuse_eq (s : State) (t : Transaction) :
    s.refuse t =
      { s with
        answers := s.answers ++ [⟨t.requester, t.tag, .error⟩]
        events := s.events.offer s.epoch.counter
          ⟨if t.kind = .write then .writeRefused else .memoryError, t.requester, s.epoch.counter,
            t.line.setWidth 64, 1⟩ } := by
  rw [← refusalKind_eq]
  rfl

/-- What the gate lets through, the WAQ having room, goes its way, and the step ends (R39). -/
theorem State.acceptTransaction_open (hg : s.gate.state = .pass ∨ s.gate.state = .holdTracked)
    (hw : s.waq.length < 32) (hf : s.transactionFits t = true) :
    s.acceptTransaction t = (s.routeTransaction t).closeStep := by
  have hb : ¬s.backPressure = true := by
    rw [State.backPressure_iff]
    rintro (h | ⟨-, h⟩)
    · rcases hg with hg | hg <;> exact nomatch hg.symm.trans h
    · omega
  unfold State.acceptTransaction
  rw [if_neg hb, hf]
  rcases hg with hg | hg <;> rw [hg] <;> rfl

/-- Settles O6: the two conditions of R40 are the model's `backPressure`. -/
theorem backPressureHoldsOff : Obligations.BackPressureHoldsOff := by
  intro s t hr hb
  rw [exec_accept hr, State.acceptTransaction, if_pos (State.backPressure_iff.mpr hb)]

/-- Settles O7: a transaction that does not fit, or any under FENCE, goes to `State.refuse`. -/
theorem aRefusalAtAcceptance : Obligations.ARefusalAtAcceptance := by
  intro s t hr h
  suffices s.acceptTransaction t = s.refuse t by rw [exec_accept hr, this, s.refuse_eq]
  have hb : ¬s.backPressure = true := by
    rw [State.backPressure_iff]
    rcases h with h | ⟨h, hw, -⟩
    · simp [h]
    · simp [h, hw]
  unfold State.acceptTransaction
  rw [if_neg hb]
  split
  · rfl
  case isFalse hfit =>
    rcases h with h | ⟨-, -, hbad⟩
    · rw [h]
    · have hfit : s.transactionFits t = true := by simpa using hfit
      obtain ⟨h1, h2, h3⟩ := State.transactionFits_iff.mp hfit
      rcases hbad with hbad | hbad | hbad
      · omega
      · omega
      · exact absurd (h3.symm.trans hbad) (by decide)

theorem State.waqHoldsLine_eq_false {l : LineIndex} (h : ∀ e ∈ s.waq, e.line ≠ l) : s.waqHoldsLine l = false := by
  simpa [State.waqHoldsLine] using h

/-- Settles O8: with no entry of its line in the WAQ the read joins the arbiter's waiting set. -/
theorem aReadPassesTheWaq : Obligations.AReadPassesTheWaq := by
  intro s t hr hg hw hs ho htag hk hl hc
  have hroute : s.routeTransaction t = s.join (.bypass t.requester t.tag) .read t.addr t.size 0 0 := by
    rw [State.routeTransaction, hk]
    simp [State.waqHoldsLine_eq_false hl]
  rw [exec_accept hr, State.acceptTransaction_open hg hw (State.transactionFits_iff.mpr ⟨hs, ho, htag⟩), hroute,
    State.closeStep_of_capturesGranted (s := s.join ..) hc]
  rfl

/-! ### The end of a FORWARD request -/

/-- The end of an outstanding request, with what `withheld` leaves of the identifiers (R147, R148). -/
theorem exec_portAnswer (h : s.resetPhase = .running) (ident : BitVec 8) (a : MemAnswer) :
    exec (.mPortAnswer ident a) s = .next (s.portAnswer ident a) :=
  whileRunning_running h (·.portAnswer ident a)

theorem exec_responseTimeout (h : s.resetPhase = .running) (ident : BitVec 8) :
    exec (.responseTimeout ident) s = .next (s.timeOut ident) := whileRunning_running h (·.timeOut ident)

/-- The answer that a FORWARD request brings its requester (R152). -/
theorem State.forwardEnds_eq (s : State) (q : BitVec 4) (g : BitVec 6) (r : Request) (a : MemAnswer) :
    s.forwardEnds q g r a =
      { s with
        answers := s.answers ++ [⟨q, g, replyFor r a⟩]
        events :=
          match a with
          | .error =>
            s.events.offer s.epoch.counter
              ⟨.memoryError, q, s.epoch.counter, (lineOf r.addr).setWidth 64, 1⟩
          | .okay _ => s.events } := by
  cases a with
  | error => rfl
  | okay d => cases hk : r.kind <;> simp [State.forwardEnds, replyFor, hk, State.answer]

/-- A FORWARD request ends with its slot free and its transaction answered. -/
theorem State.forwarded_of_ends (hc : s.capturesGranted) :
    ((s.freeRequest ident).forwardEnds q g r a).closeStep = s.forwarded ident q g r a := by
  rw [State.forwardEnds_eq, State.closeStep_of_capturesGranted (by exact hc)]
  rfl

theorem WaqEntry.keyIs_eq (e : WaqEntry) (q : BitVec 4) (g : BitVec 6) : e.keyIs q g = (e.key == (q, g)) :=
  Bool.eq_iff_iff.mpr ((e.keyIs_iff q g).trans beq_iff_eq.symm)

/-- The entry of an ended FORWARD request leaves the WAQ, which no capture waits for. -/
theorem State.capturesGranted_filter {p : WaqEntry → Bool} (h : s.capturesGranted) :
    State.capturesGranted { s with waq := s.waq.filter p } :=
  h.imp id fun h e he => h e (List.mem_of_mem_filter he)

theorem State.removeWaq_eq_filter (s : State) (q : BitVec 4) (g : BitVec 6) :
    s.removeWaq q g = { s with waq := s.waq.filter fun e => e.key != (q, g) } := by
  simp only [State.removeWaq, WaqEntry.keyIs_eq]
  rfl

/-- Settles O12: the answer and the timeout both end in `State.forwardEnds`, and the entry's leaving grants
nothing. -/
theorem aForwardRequestEnds : Obligations.AForwardRequestEnds := by
  intro s ident r q g hr hout hc
  have hwithheld : (s.freeRequest ident).withhold ident =
      State.freeRequest { s with mport.withheld := s.mport.withheld ++ [⟨ident, 400⟩] } ident := rfl
  refine ⟨fun ho => ⟨fun a => ?_, ?_⟩, fun ho => ⟨fun a => ?_, ?_⟩⟩
  · rw [exec_portAnswer hr, State.portAnswer, hout]
    simp only [State.ownerActs, ho]
    rw [State.forwarded_of_ends hc]
  · rw [exec_responseTimeout hr, State.timeOut, hout]
    simp only [State.ownerActs, ho]
    rw [hwithheld, State.forwarded_of_ends (by exact hc)]
  · rw [exec_portAnswer hr, State.portAnswer, hout]
    simp only [State.ownerActs, ho, State.removeWaq_eq_filter]
    exact congrArg _ (State.forwarded_of_ends (State.capturesGranted_filter hc))
  · rw [exec_responseTimeout hr, State.timeOut, hout]
    simp only [State.ownerActs, ho, State.removeWaq_eq_filter]
    exact congrArg _ (State.forwarded_of_ends (s := { s with
      waq := s.waq.filter fun e => e.key != (q, g)
      mport.withheld := s.mport.withheld ++ [⟨ident, 400⟩] }) (State.capturesGranted_filter hc))

/-- Settles O13: an identifier that names no outstanding request leaves only its withholding to end. -/
theorem lateAnswersAreDiscarded : Obligations.LateAnswersAreDiscarded := by
  intro s ident hr
  refine ⟨fun hout => ⟨fun a => ?_, ?_⟩, whileRunning_running hr (·.freeIdent ident)⟩
  · rw [exec_portAnswer hr, State.portAnswer, hout]
    rfl
  · rw [exec_responseTimeout hr, State.timeOut, hout]

end

end Sys2Proof.Machine
end

section
/-! PROOFS. The decision of the one head that a step brings, and how a transaction joins its chain. O9, O10. -/

namespace Sys2Proof.Machine

set_option Elab.async false

section

variable {s u : State} {t : Transaction} {e : WaqEntry} {q : BitVec 4} {g : BitVec 6} {st : WaqState}
  {pre post waq : List WaqEntry}

/-! ### The one undecided head -/

/-- Behind entries that are decided or of other lines, the first that waits is the head. -/
theorem nextHead_append_cons (hs : e.state = .waiting) : ∀ {blocked : List LineIndex} (pre : List WaqEntry),
    e.line ∉ blocked → nextHead blocked pre = none → (∀ y ∈ pre, y.line = e.line → y.state = .issued) →
      nextHead blocked (pre ++ e :: post) = some e
  | blocked, [], hb, _, _ => by simp [nextHead, hs, hb]
  | blocked, y :: ys, hb, hn, hi => by
    unfold nextHead at hn
    split at hn
    case isTrue => exact nomatch hn
    case isFalse hy =>
      rw [List.cons_append, nextHead, if_neg hy]
      refine nextHead_append_cons hs ys ?_ hn fun z hz => hi z (List.mem_cons_of_mem _ hz)
      split
      · exact hb
      case isFalse hyi =>
        rw [List.mem_cons, not_or]
        exact ⟨fun he => hyi (hi y List.mem_cons_self he.symm), hb⟩

/-- Every WAITING entry with another key than `e` stands behind an entry of its line not yet issued. -/
def othersDecided (waq : List WaqEntry) (e : WaqEntry) : Prop :=
  ∀ l y r, waq = l ++ y :: r → y.state = .waiting → y.key ≠ e.key →
    ∃ z ∈ l, z.line = y.line ∧ z.state ≠ .issued

/-- The head of a chain that is issued before it, the others being decided. -/
theorem nextHead_of_others (hs : e.state = .waiting) (hk : ∀ y ∈ pre, y.key ≠ e.key)
    (hi : ∀ y ∈ pre, y.line = e.line → y.state = .issued) (ho : othersDecided (pre ++ e :: post) e) :
    nextHead [] (pre ++ e :: post) = some e := by
  refine nextHead_append_cons hs pre List.not_mem_nil ?_ hi
  refine (nextHead_eq_none_iff pre []).mpr fun l y r hp hy => .inr (ho l y (r ++ e :: post) (by simp [hp]) hy ?_)
  exact hk y (by simp [hp])

/-- When the head has been decided without a refusal, every head is decided. -/
theorem headsDecided_of_others (ho : othersDecided waq e) (hw : st ≠ .waiting) (hi : st ≠ .issued)
    (hu : u.waq = setState waq e.txn.requester e.txn.tag st) : u.headsDecided := by
  unfold State.headsDecided
  rw [hu]
  refine (nextHead_eq_none_iff _ []).mpr fun l y r hl hy => .inr ?_
  obtain ⟨l', rest, rfl, rfl, hrest⟩ := List.map_eq_append_iff.mp hl
  obtain ⟨y', r', rfl, rfl, rfl⟩ := List.map_eq_cons_iff.mp hrest
  have hkey : ¬y'.keyIs e.txn.requester e.txn.tag = true := fun hk => by
    rw [if_pos hk] at hy
    exact hw hy
  rw [if_neg hkey] at hy ⊢
  obtain ⟨z, hz, hline, hstate⟩ := ho l' y' r' rfl hy fun hk => hkey ((y'.keyIs_iff _ _).mpr hk)
  refine ⟨_, List.mem_map_of_mem hz, ?_, ?_⟩
  · split <;> exact hline
  · split
    · exact hi
    · exact hstate

/-- One decision is all that the step has to make. -/
theorem State.advance_eq_settleHead (hn : nextHead [] s.waq = some e) (hd : (s.settleHead e).headsDecided) :
    s.advance = s.settleHead e := by
  have hlen : 0 < s.waq.length := List.length_pos_of_mem (nextHead_spec _ hn).1
  obtain ⟨n, hn'⟩ := Nat.exists_eq_succ_of_ne_zero hlen.ne'
  unfold State.advance
  rw [hn', State.advanceBy, hn]
  exact State.advanceBy_of_headsDecided hd n

theorem setState_eq (waq : List WaqEntry) (e : WaqEntry) (st : WaqState) :
    setState waq e.txn.requester e.txn.tag st =
      waq.map fun y => if y.key = e.key then { y with state := st } else y :=
  List.map_congr_left fun y _ => if_congr (y.keyIs_iff _ _) rfl rfl

theorem setState_setState (waq : List WaqEntry) (q : BitVec 4) (g : BitVec 6) (st st' : WaqState) :
    setState (setState waq q g st) q g st' = setState waq q g st' := by
  simp only [setState, List.map_map]
  refine List.map_congr_left fun y _ => ?_
  by_cases hk : y.keyIs q g = true
  · have hk' : ({ y with state := st } : WaqEntry).keyIs q g = true := hk
    simp [hk, hk']
  · simp [hk]

/-! ### What the decision leaves at the end of the step -/

/-- The state with the step's age counted. -/
def State.aged (s : State) : State := { s with mport := { s.mport with ageClock := s.mport.ageClock + 1 } }

theorem setState_states {e : WaqEntry} (h : ∀ y ∈ waq, y.state ≠ .captureWait) (hst : st ≠ .captureWait)
    (he : e ∈ setState waq q g st) : e.state ≠ .captureWait := by
  obtain ⟨y, hy, rfl⟩ := List.mem_map.mp he
  split
  · exact hst
  · exact h y hy

theorem State.makeReady_capturesGranted (h : s.capturesGranted) : (s.makeReady t).capturesGranted := by
  refine h.imp (fun h => by simpa using h) fun h y hy => ?_
  rw [State.makeReady_waq] at hy
  exact setState_states h (by decide) hy

/-- A head that is READY, and the FORWARD request it makes (R61). -/
theorem State.makeReady_closeStep (h : s.capturesGranted) (e : WaqEntry) :
    (s.makeReady e.txn).closeStep = s.aged.headTakes e .ready s.captures
      [⟨.waq e.txn.requester e.txn.tag, e.txn.kind, e.txn.addr, e.txn.size,
        if e.txn.kind = .write then e.txn.mask else 0, if e.txn.kind = .write then e.txn.data else 0,
        s.mport.ageClock⟩] := by
  rw [State.closeStep_of_capturesGranted (State.makeReady_capturesGranted h)]
  have hwaq := setState_eq s.waq e .ready
  unfold State.headTakes
  rw [show s.aged.waq = s.waq from rfl, ← hwaq]
  unfold State.makeReady State.joinForward
  split <;> rename_i hk <;> rw [hk] <;> rfl

theorem State.grantCapturesBy_of_capturesGranted (h : s.capturesGranted) (n : Nat) : s.grantCapturesBy n = s := by
  cases n with
  | zero => rfl
  | succ n =>
    unfold State.grantCapturesBy
    split
    case isTrue hlen =>
      have hwait : s.oldestCaptureWait = none := by
        refine List.find?_eq_none.mpr fun e he hs => ?_
        rcases h with h | h
        · simp only [Config.captureEntries] at hlen
          omega
        · exact h e he (by simpa using hs)
      rw [hwait]
    case isFalse => rfl

/-- The only write that waits for a free entry is granted it (R71). -/
theorem State.grantCaptures_one (hlen : s.captures.length < 16) (hw : s.oldestCaptureWait = some e)
    (hg : (s.grantCapture e.txn).capturesGranted) : s.grantCaptures = s.grantCapture e.txn := by
  change s.grantCapturesBy (15 + 1) = _
  rw [State.grantCapturesBy, if_pos (by exact hlen), hw]
  exact State.grantCapturesBy_of_capturesGranted hg 15

/-- A head that misses in the LTT takes a free Capture Buffer entry (R71, R72). -/
theorem State.captureWait_closeStep (h : s.capturesGranted) (he : e ∈ s.waq)
    (hone : ∀ y ∈ s.waq, y.key = e.key → y = e) (hlen : s.captures.length < 16) :
    (s.setWaqState e.txn.requester e.txn.tag .captureWait).closeStep =
      s.aged.headTakes e .capturing (s.captures ++ [⟨e.line, e.txn.requester, e.txn.tag, .reading⟩])
        [⟨.capture e.txn.requester e.txn.tag, .read, addrOfLine e.line, 64, 0, 0, s.mport.ageClock⟩] := by
  have hnone : ∀ y ∈ s.waq, y.state ≠ .captureWait := h.resolve_left (by omega)
  have hwait : (s.setWaqState e.txn.requester e.txn.tag .captureWait).oldestCaptureWait =
      some { e with state := .captureWait } := by
    change (setState s.waq e.txn.requester e.txn.tag .captureWait).find? _ = _
    cases hf : (setState s.waq e.txn.requester e.txn.tag .captureWait).find? (·.state == .captureWait) with
    | none =>
      refine absurd ?_ (List.find?_eq_none.mp hf _ (List.mem_map_of_mem he))
      simp [e.keyIs_self]
    | some y =>
      obtain ⟨z, hz, rfl⟩ := List.mem_map.mp (List.mem_of_find?_eq_some hf)
      have hs := List.find?_some hf
      split at hs
      case isTrue hk =>
        rw [if_pos hk, hone z hz ((z.keyIs_iff _ _).mp hk)]
      case isFalse => exact absurd (by simpa using hs) (hnone z hz)
  have hwaq : ((s.setWaqState e.txn.requester e.txn.tag .captureWait).grantCapture e.txn).waq =
      setState s.waq e.txn.requester e.txn.tag .capturing := setState_setState ..
  have hgranted : ((s.setWaqState e.txn.requester e.txn.tag .captureWait).grantCapture e.txn).capturesGranted := by
    refine .inr fun y hy => ?_
    rw [hwaq] at hy
    exact setState_states hnone (by decide) hy
  have hg : (s.setWaqState e.txn.requester e.txn.tag .captureWait).grantCaptures =
      (s.setWaqState e.txn.requester e.txn.tag .captureWait).grantCapture e.txn :=
    State.grantCaptures_one (s := s.setWaqState ..) (e := { e with state := .captureWait }) hlen hwait hgranted
  rw [State.closeStep, hg]
  unfold State.headTakes
  rw [show s.aged.waq = s.waq from rfl, ← setState_eq, ← hwaq]
  rfl

/-- A head that misses in the LTT waits when no Capture Buffer entry is free (R71). -/
theorem State.captureWait_full (hlen : 16 ≤ s.captures.length) (e : WaqEntry) :
    (s.setWaqState e.txn.requester e.txn.tag .captureWait).closeStep =
      s.aged.headTakes e .captureWait s.captures [] := by
  rw [State.closeStep_of_capturesGranted (s := s.setWaqState ..) (.inl hlen)]
  unfold State.headTakes
  rw [show s.aged.waq = s.waq from rfl, ← setState_eq, List.append_nil]
  rfl

/-- What each decision of a head keeps, the decision of all of them keeps. -/
theorem State.advance_induction {P : State → Prop}
    (hP : ∀ s e, P s → e ∈ s.waq → e.state = .waiting → P (s.settleHead e)) (h : P s) : P s.advance := by
  suffices ∀ n s, P s → P (s.advanceBy n) from this _ _ h
  intro n
  induction n with
  | zero => exact fun _ h => h
  | succ n ih =>
    intro s h
    unfold State.advanceBy
    split
    · exact h
    case h_2 e hsome =>
      obtain ⟨he, hs, -⟩ := nextHead_spec _ hsome
      exact ih _ (hP s e h he hs)

/-- Neither decisions nor grants bring entries of a new key. -/
theorem State.advanceBy_keys {k : BitVec 4 × BitVec 6} (n : Nat) : ∀ {s : State},
    (∀ y ∈ s.waq, y.key ≠ k) → ∀ y ∈ (s.advanceBy n).waq, y.key ≠ k := by
  induction n with
  | zero => exact id
  | succ n ih =>
    intro s h
    unfold State.advanceBy
    split
    · exact h
    case h_2 e _ =>
      refine ih fun y hy => ?_
      rcases s.settleHead_waq e with hw | ⟨_, -, hw⟩ <;> rw [hw] at hy
      · exact h y (List.mem_of_mem_filter hy)
      · obtain ⟨z, hz, rfl⟩ := List.mem_map.mp hy
        split <;> exact h z hz

theorem State.closeStep_keys {k : BitVec 4 × BitVec 6} (h : ∀ y ∈ s.waq, y.key ≠ k) :
    ∀ y ∈ s.closeStep.waq, y.key ≠ k := by
  refine State.grantCaptures_induction (P := fun s => ∀ y ∈ s.waq, y.key ≠ k) (fun s e h _ _ y hy => ?_) h
  obtain ⟨z, hz, rfl⟩ := List.mem_map.mp (show y ∈ setState s.waq _ _ _ from hy)
  split <;> exact h z hz

/-- The head of a chain is decided at the end of the step (R58, R59, R60). -/
theorem State.headDecided (hn : nextHead [] s.waq = some e) (ho : othersDecided s.waq e)
    (hone : ∀ y ∈ s.waq, y.key = e.key → y = e) (hg : s.capturesGranted) :
    HeadDecided s.aged s.advance.closeStep s.mport.ageClock e := by
  have he : e ∈ s.waq := (nextHead_spec _ hn).1
  have ready (h : s.settleHead e = s.makeReady e.txn) : s.advance = s.makeReady e.txn := by
    rw [← h]
    exact State.advance_eq_settleHead hn (headsDecided_of_others ho (st := .ready) (by decide) (by decide)
      (by rw [h]; exact State.makeReady_waq ..))
  refine ⟨fun hk => ?_, fun hk => ⟨fun hd => ?_, fun hd => ?_, fun hd hm hl => ?_⟩⟩
  · rw [ready (s.settleHead_read hk), State.makeReady_closeStep hg, hk]
    rfl
  · have hd : s.decodeLine e.txn.line = .fenced := hd
    have hsettle : s.settleHead e = (s.removeWaq e.txn.requester e.txn.tag).refuse e.txn := by
      rw [s.settleHead_write hk]
      simp only [State.decideWrite, hd]
    have hlen : 0 < s.waq.length := List.length_pos_of_mem he
    obtain ⟨n, hn'⟩ := Nat.exists_eq_succ_of_ne_zero hlen.ne'
    have hadv : s.advance = ((s.removeWaq e.txn.requester e.txn.tag).refuse e.txn).advanceBy n := by
      rw [State.advance, hn', State.advanceBy, hn, ← hsettle]
    obtain ⟨l, -, hans, hev⟩ := State.advanceBy_refuses n ((s.removeWaq e.txn.requester e.txn.tag).refuse e.txn)
    refine ⟨State.closeStep_keys (hadv ▸ State.advanceBy_keys n fun y hy => ?_), ⟨l.map errorAnswer, ?_⟩,
      l.map (writeRefusal s.epoch.counter), ?_, ?_⟩
    · have := (List.mem_filter.mp hy).2
      intro hk
      rw [(y.keyIs_iff _ _).mpr hk] at this
      exact nomatch this
    · simpa [hadv, State.aged] using hans
    · simp
    · simpa [hadv, State.aged, refusalKind, hk, WaqEntry.line] using hev
  · have hready : s.settleHead e = s.makeReady e.txn := by
      rcases s.settleHead_cases e with ⟨-, hd', -⟩ | ⟨-, h⟩ | ⟨-, hd', hm, hl, -⟩
      · rcases hd with hd | ⟨hd, -⟩ <;> exact nomatch hd.symm.trans hd'
      · exact h
      · rcases hd with hd | ⟨-, hd | hd⟩
        · exact nomatch hd.symm.trans hd'
        · exact absurd hm hd
        · exact absurd hd hl
    rw [ready hready, State.makeReady_closeStep hg, hk]
    rfl
  · have hwait : s.settleHead e = s.setWaqState e.txn.requester e.txn.tag .captureWait := by
      rcases s.settleHead_cases e with ⟨-, hd', -⟩ | ⟨hd', -⟩ | ⟨-, -, -, -, h⟩
      · exact nomatch hd.symm.trans hd'
      · rcases hd' hk with hd' | ⟨-, hm' | hl'⟩
        · exact nomatch hd.symm.trans hd'
        · exact absurd hm hm'
        · exact absurd hl' hl
      · exact h
    have hadv : s.advance = s.setWaqState e.txn.requester e.txn.tag .captureWait := by
      rw [← hwait]
      exact State.advance_eq_settleHead hn (headsDecided_of_others ho (st := .captureWait) (by decide) (by decide)
        (by rw [hwait]; rfl))
    rw [hadv]
    exact ⟨fun hlen => State.captureWait_closeStep hg he hone hlen, fun hlen => State.captureWait_full (s := s) hlen e⟩

end

end Sys2Proof.Machine
end

section
/-! PROOFS. A transaction that enters the WAQ, and the arbiter's grants. O9, O10, O11. -/

namespace Sys2Proof.Machine

set_option Elab.async false

section

variable {s u : State} {t : Transaction} {e x : WaqEntry} {q : BitVec 4} {g : BitVec 6} {st : WaqState}
  {pre post waq : List WaqEntry} {r : Request} {m : MPort}

/-! ### Entering the WAQ -/

/-- The state with one entry more in the WAQ (R39). -/
def State.entered (s : State) (t : Transaction) (st : WaqState) : State :=
  { s with waq := s.waq ++ [⟨t, st, false, false⟩] }

/-- No entry has the identity of a new transaction (R38). -/
theorem State.fresh_key (h : s.tagInUse t.requester t.tag = false) (st : WaqState) (b c : Bool) :
    ∀ y ∈ s.waq, y.key ≠ (⟨t, st, b, c⟩ : WaqEntry).key := by
  intro y hy hk
  have hy' : s.waq.any (·.keyIs t.requester t.tag) = false := by
    simp only [State.tagInUse, Bool.or_eq_false_iff] at h
    exact h.1.1
  exact absurd ((y.keyIs_iff _ _).mpr hk) (List.any_eq_false.mp hy' y hy)

/-- What stands before the new entry stood so before. -/
theorem snoc_split {l r : List WaqEntry} {y : WaqEntry} (h : waq ++ [e] = l ++ y :: r) (hk : y.key ≠ e.key) :
    ∃ r', waq = l ++ y :: r' := by
  rcases List.eq_nil_or_concat r with rfl | ⟨r', z, rfl⟩
  · obtain ⟨-, he⟩ := List.append_inj' h rfl
    cases he
    exact absurd rfl hk
  · refine ⟨r', ?_⟩
    rw [List.concat_eq_append, ← List.cons_append, ← List.append_assoc] at h
    exact (List.append_inj' h rfl).1

theorem othersDecided_snoc (h : s.headsDecided) (e : WaqEntry) : othersDecided (s.waq ++ [e]) e := by
  intro l y r hl hy hk
  obtain ⟨r', hr⟩ := snoc_split hl hk
  exact ((nextHead_eq_none_iff _ _).mp h l y r' hr hy).resolve_left List.not_mem_nil

/-- A new entry that is not a head leaves every head decided. -/
theorem headsDecided_snoc (h : s.headsDecided) {e : WaqEntry} (hf : ∀ y ∈ s.waq, y.key ≠ e.key)
    (hw : e.state = .waiting → ∃ z ∈ s.waq, z.line = e.line ∧ z.state ≠ .issued) :
    State.headsDecided { s with waq := s.waq ++ [e] } := by
  refine (nextHead_eq_none_iff _ _).mpr fun l y r hl hy => .inr ?_
  by_cases hk : y.key = e.key
  · obtain ⟨rfl, rfl⟩ : l = s.waq ∧ y = e := by
      rcases List.eq_nil_or_concat r with rfl | ⟨r', z, rfl⟩
      · obtain ⟨h1, h2⟩ := List.append_inj' hl rfl
        exact ⟨h1.symm, (List.cons.inj h2).1.symm⟩
      · rw [List.concat_eq_append, ← List.cons_append, ← List.append_assoc] at hl
        obtain ⟨h1, -⟩ := List.append_inj' hl rfl
        exact absurd hk (hf y (by simp [h1]))
    exact hw hy
  · exact othersDecided_snoc h e l y r hl hy hk

theorem State.entered_capturesGranted (h : s.capturesGranted) (hst : st ≠ .captureWait) :
    (s.entered t st).capturesGranted := by
  refine h.imp id fun h y hy => ?_
  rcases List.mem_append.mp hy with hy | hy
  · exact h y hy
  · rw [List.mem_singleton.mp hy]
    exact hst

/-- A transaction that enters without becoming a head takes its place, and that is all (R39, R48, R59). -/
theorem State.entered_closeStep (hd : s.headsDecided) (hg : s.capturesGranted)
    (hf : s.tagInUse t.requester t.tag = false) (hst : st ≠ .captureWait)
    (hw : st = .waiting → ∃ z ∈ s.waq, z.line = t.line ∧ z.state ≠ .issued) :
    (s.entered t st).advance.closeStep = (s.entered t st).aged := by
  have hdecided : (s.entered t st).headsDecided := headsDecided_snoc hd (State.fresh_key hf st false false) hw
  rw [State.advance_of_headsDecided hdecided,
    State.closeStep_of_capturesGranted (State.entered_capturesGranted hg hst)]
  rfl

/-- A decision about a new entry changes that entry alone. -/
theorem State.headTakes_entered (hf : s.tagInUse t.requester t.tag = false) (captures : List CaptureEntry)
    (requests : List Request) :
    (s.entered t .waiting).aged.headTakes ⟨t, .waiting, false, false⟩ st captures requests =
      { s with
        waq := s.waq ++ [⟨t, st, false, false⟩]
        captures := captures
        mport :=
          { s.mport with waiting := s.mport.waiting ++ requests, ageClock := s.mport.ageClock + 1 } } := by
  have hwaq : (s.entered t .waiting).waq.map (fun y : WaqEntry =>
      if y.key = (⟨t, .waiting, false, false⟩ : WaqEntry).key then { y with state := st } else y) =
        s.waq ++ [⟨t, st, false, false⟩] := by
    rw [State.entered, List.map_append]
    refine congrArg₂ _ ?_ (by simp)
    exact (List.map_congr_left fun y hy => if_neg (State.fresh_key hf _ _ _ y hy)).trans (List.map_id _)
  exact congrArg (fun w => ({ s with
    waq := w
    captures := captures
    mport := { s.mport with waiting := s.mport.waiting ++ requests, ageClock := s.mport.ageClock + 1 } } :
      State)) hwaq

/-- A new entry whose chain is issued is the head to decide. -/
theorem State.entered_headDecided (hd : s.headsDecided) (hg : s.capturesGranted)
    (hf : s.tagInUse t.requester t.tag = false) (hi : ∀ e ∈ s.waq, e.line = t.line → e.state = .issued) :
    HeadDecided (s.entered t .waiting).aged (s.entered t .waiting).advance.closeStep s.mport.ageClock
      ⟨t, .waiting, false, false⟩ := by
  have hfresh := State.fresh_key hf .waiting false false
  have hothers : othersDecided (s.entered t .waiting).waq ⟨t, .waiting, false, false⟩ := othersDecided_snoc hd _
  refine State.headDecided (nextHead_of_others rfl hfresh hi hothers) hothers (fun y hy hk => ?_)
    (State.entered_capturesGranted hg (by decide))
  rcases List.mem_append.mp hy with hy | hy
  · exact absurd hk (hfresh y hy)
  · exact List.mem_singleton.mp hy

/-- A new entry of a FENCED line that heads its chain is refused, and nothing stays of it (R43). -/
theorem State.entered_fenced (hd : s.headsDecided) (hg : s.capturesGranted)
    (hf : s.tagInUse t.requester t.tag = false) (hi : ∀ e ∈ s.waq, e.line = t.line → e.state = .issued)
    (hk : t.kind = .write) (hm : s.decodeLine t.line = .fenced) :
    (s.entered t .waiting).advance.closeStep = (s.refuse t).aged := by
  have hfresh := State.fresh_key hf .waiting false false
  have hothers : othersDecided (s.entered t .waiting).waq ⟨t, .waiting, false, false⟩ := othersDecided_snoc hd _
  have hremoved : (s.entered t .waiting).removeWaq t.requester t.tag = s := by
    have : (s.entered t .waiting).waq.filter (fun y => !y.keyIs t.requester t.tag) = s.waq := by
      rw [State.entered, List.filter_append, List.filter_eq_self.mpr fun y hy => ?_]
      · simp [WaqEntry.keyIs]
      · have hne : ¬y.keyIs t.requester t.tag = true := fun hkey => hfresh y hy ((y.keyIs_iff _ _).mp hkey)
        simp [hne]
    unfold State.removeWaq
    rw [this]
    rfl
  have hdec : (s.entered t .waiting).decodeLine t.line = .fenced := hm
  have hsettle : (s.entered t .waiting).settleHead ⟨t, .waiting, false, false⟩ = s.refuse t := by
    rw [State.settleHead_write _ hk, State.decideWrite]
    simp only [hdec, hremoved]
  have hdr : ((s.entered t .waiting).settleHead ⟨t, .waiting, false, false⟩).headsDecided := hsettle.symm ▸ hd
  rw [State.advance_eq_settleHead (nextHead_of_others rfl hfresh hi hothers) hdr, hsettle]
  exact State.closeStep_of_capturesGranted (s := s.refuse t) hg

/-- A write that the gate does not park waits for its decision (R48). -/
theorem State.firstState_waiting
    (h : t.kind = .read ∨ s.gate.state = .pass ∨ s.decodeLine t.line ≠ .tracked) : s.firstState t = .waiting := by
  refine if_neg fun ⟨hk, hg, hm⟩ => ?_
  rcases h with h | h | h
  · exact nomatch h.symm.trans hk
  · exact nomatch h.symm.trans hg
  · exact h hm

theorem State.routeTransaction_write (hk : t.kind = .write) :
    s.routeTransaction t = (s.entered t (s.firstState t)).advance := by
  rw [State.routeTransaction, hk]
  rfl

theorem State.routeTransaction_chained (h : ∃ e ∈ s.waq, e.line = t.line) :
    s.routeTransaction t = (s.entered t (s.firstState t)).advance := by
  have hl : s.waqHoldsLine t.line = true := by
    obtain ⟨e, he, hl⟩ := h
    exact List.any_eq_true.mpr ⟨e, he, by simpa using hl⟩
  unfold State.routeTransaction
  split
  · rfl
  · rw [if_pos hl]
    rfl

/-- Settles O9: an entry that enters at the head of its chain is decided in the same step
(`State.entered_headDecided`). -/
theorem aHeadWriteIsDecided : Obligations.AHeadWriteIsDecided := by
  intro s t hr hg hw hs ho htag hk hi hd hc
  have hopen : s.gate.state = .pass ∨ s.gate.state = .holdTracked := hg.imp id (·.1)
  have hfirst : s.firstState t = .waiting := State.firstState_waiting (.inr (hg.imp id (·.2)))
  have hrun : exec (.pTransactionAccept t) s = .next (s.entered t .waiting).advance.closeStep := by
    rw [exec_accept hr, State.acceptTransaction_open hopen hw (State.transactionFits_iff.mpr ⟨hs, ho, htag⟩),
      State.routeTransaction_write hk, hfirst]
  obtain ⟨-, hwrite⟩ := State.entered_headDecided hd hc htag hi
  obtain ⟨-, hready, hmiss⟩ := hwrite hk
  rw [hrun]
  refine ⟨fun hm => ?_, fun hm => ?_, fun hm hj hl => ⟨fun hlen => ?_, fun hlen => ?_⟩⟩
  · rw [State.entered_fenced hd hc htag hi hk hm, State.refuse_eq, if_pos hk]
    rfl
  · rw [hready hm, State.headTakes_entered htag]
    rfl
  · rw [(hmiss hm hj hl).1 hlen, State.headTakes_entered htag]
    rfl
  · rw [(hmiss hm hj hl).2 hlen, State.headTakes_entered htag, List.append_nil]
    rfl

/-- Settles O10: by the state in which the transaction enters the WAQ (`State.firstState_waiting`), after
which every head is decided still. -/
theorem aTransactionJoinsItsChain : Obligations.ATransactionJoinsItsChain := by
  intro s t hr hg hw hs ho htag hd hc
  have hrun : exec (.pTransactionAccept t) s = .next (s.routeTransaction t).closeStep := by
    rw [exec_accept hr, State.acceptTransaction_open hg hw (State.transactionFits_iff.mpr ⟨hs, ho, htag⟩)]
  rw [hrun]
  refine ⟨fun hk hh hm => ?_, fun hchain hopen => ?_, fun hk hchain hi => ?_⟩
  · rw [State.routeTransaction_write hk, State.firstState, if_pos ⟨hk, hh, hm⟩,
      State.entered_closeStep hd hc htag (st := .parked) (by decide) fun h => nomatch h]
    rfl
  · obtain ⟨e, he, hl, hst⟩ := hchain
    rw [State.routeTransaction_chained ⟨e, he, hl⟩, State.firstState_waiting hopen,
      State.entered_closeStep hd hc htag (by decide) fun _ => ⟨e, he, hl, hst⟩]
    rfl
  · obtain ⟨hread, -⟩ := State.entered_headDecided hd hc htag hi
    rw [State.routeTransaction_chained hchain, State.firstState_waiting (.inl hk), hread hk,
      State.headTakes_entered htag]
    rfl

/-! ### The arbiter -/

theorem MPort.mem_ofClass {c : RequestClass} : r ∈ m.ofClass c ↔ r ∈ m.waiting ∧ r.owner.cls = c := by
  simp [MPort.ofClass]

/-- The waiting requests of the first class, in the arbiter's order, that has one (R149). -/
theorem MPort.topClass_spec (h : m.waiting ≠ []) :
    ∃ c, m.topClass = m.ofClass c ∧ m.ofClass c ≠ [] ∧ ∀ x ∈ m.waiting, c.rank ≤ x.owner.cls.rank := by
  have nonempty {c : RequestClass} (hc : (!(m.ofClass c).isEmpty) = true) : m.ofClass c ≠ [] := by
    simpa using hc
  have none {c : RequestClass} (hc : ¬(!(m.ofClass c).isEmpty) = true) (x : Request) (hx : x ∈ m.waiting) :
      x.owner.cls ≠ c := by
    have hempty : m.ofClass c = [] := by simpa using hc
    intro he
    have := MPort.mem_ofClass.mpr ⟨hx, he⟩
    rw [hempty] at this
    exact nomatch this
  unfold MPort.topClass
  split
  case isTrue hj => exact ⟨_, rfl, nonempty hj, fun x _ => Nat.zero_le _⟩
  case isFalse hj =>
    split
    case isTrue hc =>
      refine ⟨_, rfl, nonempty hc, fun x hx => ?_⟩
      have := none hj x hx
      cases hx : x.owner.cls <;> simp_all [RequestClass.rank]
    case isFalse hc =>
      split
      case isTrue hf =>
        refine ⟨_, rfl, nonempty hf, fun x hx => ?_⟩
        have := none hj x hx
        have := none hc x hx
        cases hx : x.owner.cls <;> simp_all [RequestClass.rank]
      case isFalse hf =>
        have service (x : Request) (hx : x ∈ m.waiting) : x.owner.cls = .service := by
          have := none hj x hx
          have := none hc x hx
          have := none hf x hx
          cases hx : x.owner.cls <;> simp_all
        obtain ⟨x, hx⟩ := List.exists_mem_of_ne_nil _ h
        exact ⟨_, rfl, List.ne_nil_of_mem (MPort.mem_ofClass.mpr ⟨hx, service x hx⟩),
          fun y hy => by rw [service y hy]⟩

theorem MPort.choice_mem_oldest {tie : Nat} (h : m.choice tie = some r) : r ∈ m.oldest := by
  unfold MPort.choice at h
  split at h
  case h_1 => exact nomatch h
  case h_2 ho =>
    cases h
    rw [ho]
    exact List.mem_singleton_self _
  case h_3 ho =>
    rw [ho]
    exact List.mem_of_getElem? h

/-- The arbiter's choice is a request it may grant (R149). -/
theorem MPort.choice_mayGrant {tie : Nat} (hp : m.waiting.Pairwise fun x y => x.joined ≤ y.joined)
    (h : m.choice tie = some r) : m.mayGrant r := by
  obtain ⟨c, htop, -, hrank⟩ := MPort.topClass_spec (List.ne_nil_of_mem (MPort.choice_mem h))
  have hold : r ∈ m.ofClass c ∧ ∀ x ∈ m.ofClass c, r.joined ≤ x.joined := by
    have hpc : (m.ofClass c).Pairwise fun x y => x.joined ≤ y.joined := hp.sublist List.filter_sublist
    have := MPort.choice_mem_oldest h
    unfold MPort.oldest at this
    rw [htop] at this
    split at this
    case h_1 => exact nomatch this
    case h_2 y ys hy =>
      rw [hy] at hpc ⊢
      have first : ∀ x ∈ y :: ys, y.joined ≤ x.joined :=
        List.forall_mem_cons.mpr ⟨le_rfl, (List.pairwise_cons.mp hpc).1⟩
      rcases List.mem_cons.mp this with rfl | hr
      · exact ⟨List.mem_cons_self, first⟩
      · obtain ⟨hmem, hj⟩ := List.mem_filter.mp hr
        have hj : r.joined = y.joined := by simpa using hj
        exact ⟨List.mem_cons_of_mem _ hmem, fun x hx => hj ▸ first x hx⟩
  obtain ⟨hmem, hcls⟩ := MPort.mem_ofClass.mp hold.1
  exact ⟨hmem, fun x hx => hcls ▸ hrank x hx, fun x hx hx' =>
    hold.2 x (MPort.mem_ofClass.mpr ⟨hx, hx'.trans hcls⟩)⟩

theorem MPort.choice_exists (h : m.waiting ≠ []) (tie : Nat) : ∃ r, m.choice tie = some r := by
  obtain ⟨c, htop, hne, -⟩ := MPort.topClass_spec h
  have hold : m.oldest ≠ [] := by
    unfold MPort.oldest
    rw [htop]
    split
    case h_1 he => exact absurd he hne
    case h_2 => exact List.cons_ne_nil _ _
  unfold MPort.choice
  split
  case h_1 he => exact absurd he hold
  case h_2 => exact ⟨_, rfl⟩
  case h_3 y ys _ _ =>
    have hlt : tie % (ys.length + 1) < (y :: ys).length := by
      simpa using Nat.mod_lt _ (Nat.succ_pos _)
    exact ⟨_, List.getElem?_eq_getElem hlt⟩

/-- The requests that a step adds to the waiting set join it with the step's age (R149). -/
def State.Joins (s u : State) : Prop :=
  u.mport.ageClock = s.mport.ageClock ∧
    ∃ more, u.mport.waiting = s.mport.waiting ++ more ∧ ∀ x ∈ more, x.joined = s.mport.ageClock

theorem State.Joins.refl (s : State) : s.Joins s := ⟨rfl, [], by simp, List.forall_mem_nil _⟩

theorem State.Joins.one {x : Request} (ha : u.mport.ageClock = s.mport.ageClock)
    (hw : u.mport.waiting = s.mport.waiting ++ [x]) (hx : x.joined = s.mport.ageClock) : s.Joins u :=
  ⟨ha, [x], hw, fun _ hy => List.mem_singleton.mp hy ▸ hx⟩

theorem State.Joins.trans {v : State} (h : s.Joins u) (h' : u.Joins v) : s.Joins v := by
  obtain ⟨ha, l, hl, hj⟩ := h
  obtain ⟨ha', l', hl', hj'⟩ := h'
  refine ⟨ha'.trans ha, l ++ l', by rw [hl', hl, List.append_assoc], fun x hx => ?_⟩
  rcases List.mem_append.mp hx with hx | hx
  · exact hj x hx
  · exact (hj' x hx).trans ha

theorem State.makeReady_joins (s : State) (t : Transaction) : s.Joins (s.makeReady t) := by
  unfold State.makeReady State.joinForward
  split <;> exact .one rfl rfl rfl

theorem State.settleHead_joins (s : State) (e : WaqEntry) : s.Joins (s.settleHead e) := by
  rcases s.settleHead_cases e with ⟨-, -, h⟩ | ⟨-, h⟩ | ⟨-, -, -, -, h⟩ <;> rw [h]
  · exact .refl s
  · exact s.makeReady_joins e.txn
  · exact .refl s

theorem State.advance_joins (s : State) : s.Joins s.advance :=
  State.advance_induction (P := s.Joins) (fun u e h _ _ => h.trans (u.settleHead_joins e)) (.refl s)

theorem State.grantCaptures_joins (s : State) : s.Joins s.grantCaptures :=
  State.grantCaptures_induction (P := s.Joins) (fun _ _ h _ _ => h.trans (.one rfl rfl rfl)) (.refl s)

/-- An entry that has been issued stays so while others are decided and granted. -/
theorem State.issued_kept (h : ∀ y ∈ s.waq, y.key = (q, g) → y.state = .issued) :
    ∀ y ∈ s.advance.closeStep.waq, y.key = (q, g) → y.state = .issued := by
  have set {u : State} {e : WaqEntry} {st : WaqState} {waq : List WaqEntry}
      (hu : ∀ y ∈ u.waq, y.key = (q, g) → y.state = .issued) (he : e ∈ u.waq) (hs : e.state ≠ .issued)
      (hw : waq = setState u.waq e.txn.requester e.txn.tag st) :
      ∀ y ∈ waq, y.key = (q, g) → y.state = .issued := by
    rw [hw]
    intro y hy hk
    obtain ⟨z, hz, rfl⟩ := List.mem_map.mp hy
    split at hk
    case isTrue hkey =>
      exact absurd (hu e he (((z.keyIs_iff _ _).mp hkey).symm.trans hk)) hs
    case isFalse hkey =>
      rw [if_neg hkey]
      exact hu z hz hk
  have hadv : ∀ y ∈ s.advance.waq, y.key = (q, g) → y.state = .issued := by
    refine State.advance_induction (P := fun u => ∀ y ∈ u.waq, y.key = (q, g) → y.state = .issued)
      (fun u e hu he hs => ?_) h
    rcases u.settleHead_waq e with hw | ⟨st, -, hw⟩
    · rw [hw]
      exact fun y hy => hu y (List.mem_of_mem_filter hy)
    · exact set hu he (by rw [hs]; decide) hw
  exact State.grantCaptures_induction (P := fun u => ∀ y ∈ u.waq, y.key = (q, g) → y.state = .issued)
    (fun u e hu he hs => set hu he (by rw [hs]; decide) rfl) hadv

theorem othersDecided_of_headsDecided (h : s.headsDecided) (e : WaqEntry) : othersDecided s.waq e :=
  fun l y r hl hy _ => ((nextHead_eq_none_iff _ _).mp h l y r hl hy).resolve_left List.not_mem_nil

/-- Grants leave every head decided (R71, R58). -/
theorem State.closeStep_headsDecided (h : s.headsDecided) : s.closeStep.headsDecided :=
  State.grantCaptures_induction (P := State.headsDecided) (fun _ e h _ _ =>
    headsDecided_of_others (st := .capturing) (othersDecided_of_headsDecided h e) (by decide) (by decide) rfl) h

/-- The state in which the granted request of a WAQ entry has just been sent. -/
def State.issuing (s : State) (ident : BitVec 8) (r : Request) (q : BitVec 4) (g : BitVec 6) : State :=
  (s.send ident r).setWaqState q g .issued

theorem State.issuing_aged (s : State) (ident : BitVec 8) (r : Request) (q : BitVec 4) (g : BitVec 6) :
    (s.issuing ident r q g).aged = s.granted ident r (q, g) := by
  have hwaq : (s.issuing ident r q g).waq =
      s.waq.map fun y => if y.key = (q, g) then { y with state := .issued } else y :=
    List.map_congr_left fun y _ => if_congr (y.keyIs_iff q g) rfl rfl
  unfold State.granted
  rw [← hwaq]
  rfl

theorem State.issuing_capturesGranted {ident : BitVec 8} (h : s.capturesGranted) :
    (s.issuing ident r q g).capturesGranted :=
  h.imp id fun h _ hy => setState_states h (by decide) hy

/-- A position in the WAQ, its keys being distinct, is told by the entry. -/
theorem split_unique {l l' r r' : List WaqEntry} {y : WaqEntry} (hn : (waq.map WaqEntry.key).Nodup)
    (h : waq = l ++ y :: r) (h' : waq = l' ++ y :: r') : l = l' ∧ r = r' := by
  have hnd : waq.Nodup := hn.of_map _
  have hl : y ∉ l := by
    rw [h] at hnd
    exact fun hy => (List.nodup_append.mp hnd).2.2 y hy y List.mem_cons_self rfl
  have hr : y ∉ r := by
    rw [h] at hnd
    exact (List.nodup_cons.mp (List.nodup_append.mp hnd).2.1).1
  obtain ⟨h1, -, h2⟩ := (List.append_cons_inj_of_notMem hl hr).mp (h.symm.trans h')
  exact ⟨h1, h2⟩

/-- An entry of the WAQ as the grant leaves it. -/
def WaqEntry.issuedBy (e : WaqEntry) (q : BitVec 4) (g : BitVec 6) : WaqEntry :=
  if e.keyIs q g then { e with state := .issued } else e

theorem WaqEntry.issuedBy_of_waiting (h : (e.issuedBy q g).state = .waiting) : e.issuedBy q g = e := by
  unfold WaqEntry.issuedBy at h ⊢
  split at h
  · exact nomatch h
  case isFalse hk => rw [if_neg hk]

@[simp] theorem WaqEntry.issuedBy_line : (e.issuedBy q g).line = e.line := by
  unfold WaqEntry.issuedBy
  split <;> rfl

@[simp] theorem WaqEntry.issuedBy_key : (e.issuedBy q g).key = e.key := by
  unfold WaqEntry.issuedBy
  split <;> rfl

theorem WaqEntry.issuedBy_state : (e.issuedBy q g).state = .issued ↔ e.key = (q, g) ∨ e.state = .issued := by
  unfold WaqEntry.issuedBy
  split
  case isTrue hk => exact iff_of_true rfl (.inl ((e.keyIs_iff q g).mp hk))
  case isFalse hk => simp [show e.key ≠ (q, g) from fun h => hk ((e.keyIs_iff q g).mpr h)]

/-- Every WAITING entry of another line than the granted one's stands behind one not yet issued. -/
theorem issuing_other_line (hd : s.headsDecided) (hn : (s.waq.map WaqEntry.key).Nodup)
    (hx : x ∈ s.waq) (hkx : x.key = (q, g)) {l r' : List WaqEntry} {y : WaqEntry} (hl : s.waq = l ++ y :: r')
    (hy : y.state = .waiting) (hline : y.line ≠ x.line) :
    ∃ z ∈ l, (z.issuedBy q g).line = y.line ∧ (z.issuedBy q g).state ≠ .issued := by
  obtain ⟨z, hz, hzl, hzs⟩ :=
    ((nextHead_eq_none_iff _ _).mp hd l y r' hl hy).resolve_left List.not_mem_nil
  refine ⟨z, hz, by simpa using hzl, fun hi => ?_⟩
  rcases WaqEntry.issuedBy_state.mp hi with hk | hi
  · have : z = x := eq_of_key hn hx (by simp [hl, hz]) (hk.trans hkx.symm)
    exact hline (hzl.symm.trans (by rw [this]))
  · exact hzs hi

theorem State.issuing_waq (s : State) (ident : BitVec 8) (r : Request) :
    (s.issuing ident r q g).waq = s.waq.map (WaqEntry.issuedBy · q g) := rfl

/-- After the grant to `x` every head is decided, when each write behind it has another in front. -/
theorem State.issuing_headsDecided {ident : BitVec 8} (hd : s.headsDecided)
    (hn : (s.waq.map WaqEntry.key).Nodup) (hx : x ∈ s.waq) (hkx : x.key = (q, g))
    (hb : ∀ pre e post, s.waq = pre ++ e :: post → e.state = .waiting → e.line = x.line →
      ∃ y ∈ pre, y.line = e.line ∧ y.key ≠ (q, g) ∧ y.state ≠ .issued) :
    (s.issuing ident r q g).headsDecided := by
  refine (nextHead_eq_none_iff _ []).mpr fun l' y' r' hl hy => .inr ?_
  rw [State.issuing_waq] at hl
  obtain ⟨l, rest, hs, rfl, hrest⟩ := List.map_eq_append_iff.mp hl
  obtain ⟨y, r'', rfl, rfl, rfl⟩ := List.map_eq_cons_iff.mp hrest
  have hsame := WaqEntry.issuedBy_of_waiting hy
  rw [hsame] at hy ⊢
  by_cases hline : y.line = x.line
  · obtain ⟨z, hz, hzl, hzk, hzs⟩ := hb l y r'' hs hy hline
    refine ⟨_, List.mem_map_of_mem hz, by simpa using hzl, fun hi => ?_⟩
    exact (WaqEntry.issuedBy_state.mp hi).elim hzk hzs
  · obtain ⟨z, hz, h⟩ := issuing_other_line hd hn hx hkx hs hy hline
    exact ⟨_, List.mem_map_of_mem hz, h⟩

/-- After the grant to `x` the next entry of its chain is the one head to decide. -/
theorem State.issuing_headDecided {ident : BitVec 8} (hd : s.headsDecided)
    (hn : (s.waq.map WaqEntry.key).Nodup) (hg : s.capturesGranted) (hx : x ∈ s.waq) (hkx : x.key = (q, g))
    (hs : s.waq = pre ++ e :: post) (he : e.state = .waiting) (hl : e.line = x.line)
    (hi : ∀ y ∈ pre, y.line = e.line → y.key = (q, g) ∨ y.state = .issued) :
    HeadDecided (s.granted ident r (q, g)) (s.issuing ident r q g).advance.closeStep s.mport.ageClock e := by
  have hmem : e ∈ s.waq := by simp [hs]
  have hpre : ∀ y ∈ pre, y.key ≠ e.key := by
    intro y hy hk
    have hye : y = e := eq_of_key hn hmem (by simp [hs, hy]) hk
    obtain ⟨p1, p2, hp⟩ := List.append_of_mem hy
    obtain ⟨h1, -⟩ := split_unique (y := e) hn hs (l' := p1) (r' := p2 ++ e :: post) (by simp [hs, hp, hye])
    rw [h1] at hp
    exact absurd (congrArg List.length hp) (by simp)
  have hkey : e.key ≠ (q, g) := by
    intro hk
    have hex : e = x := eq_of_key hn hx hmem (hk.trans hkx.symm)
    obtain ⟨z, hz, hzl, hzs⟩ :=
      ((nextHead_eq_none_iff _ _).mp hd pre e post hs he).resolve_left List.not_mem_nil
    exact (hi z hz hzl).elim (fun hzk => hpre z hz (hzk.trans hk.symm)) hzs
  have hsame : e.issuedBy q g = e := if_neg fun hk => hkey ((e.keyIs_iff q g).mp hk)
  have hwaq : (s.issuing ident r q g).waq =
      pre.map (WaqEntry.issuedBy · q g) ++ e :: post.map (WaqEntry.issuedBy · q g) := by
    rw [State.issuing_waq, hs, List.map_append, List.map_cons, hsame]
  have hothers : othersDecided (s.issuing ident r q g).waq e := by
    intro l' y' r' hl' hy hk
    rw [State.issuing_waq] at hl'
    obtain ⟨l, rest, hsl, rfl, hrest⟩ := List.map_eq_append_iff.mp hl'
    obtain ⟨y, r'', rfl, rfl, rfl⟩ := List.map_eq_cons_iff.mp hrest
    have hyi : ¬(y.issuedBy q g).state = .issued := by rw [hy]; decide
    have hyy := WaqEntry.issuedBy_of_waiting hy
    rw [hyy] at hy hk ⊢
    by_cases hline : y.line = x.line
    · by_cases hel : e ∈ l
      · exact ⟨_, List.mem_map_of_mem hel, by simp [hl, hline], by rw [hsame, he]; decide⟩
      · have her : e ∈ r'' := by
          have : e ∈ l ++ y :: r'' := hsl ▸ hmem
          rcases List.mem_append.mp this with h | h
          · exact absurd h hel
          · rcases List.mem_cons.mp h with h | h
            · exact absurd (congrArg WaqEntry.key h.symm) hk
            · exact h
        obtain ⟨r1, r2, rfl⟩ := List.append_of_mem her
        obtain ⟨hp, -⟩ := split_unique (y := e) hn hs (l' := l ++ y :: r1) (r' := r2) (by simp [hsl])
        exact absurd (WaqEntry.issuedBy_state.mpr (hi y (by simp [hp]) (hline.trans hl.symm))) hyi
    · obtain ⟨z, hz, h⟩ := issuing_other_line hd hn hx hkx hsl hy hline
      exact ⟨_, List.mem_map_of_mem hz, h⟩
  rw [← State.issuing_aged]
  refine State.headDecided ?_ hothers (fun y hy hk => ?_) (State.issuing_capturesGranted hg)
  · rw [hwaq]
    refine nextHead_of_others he (fun y hy => ?_) (fun y hy hyl => ?_) (hwaq ▸ hothers)
    · obtain ⟨z, hz, rfl⟩ := List.mem_map.mp hy
      simpa using hpre z hz
    · obtain ⟨z, hz, rfl⟩ := List.mem_map.mp hy
      exact WaqEntry.issuedBy_state.mpr (hi z hz (by simpa using hyl))
  · rw [State.issuing_waq] at hy
    obtain ⟨z, hz, rfl⟩ := List.mem_map.mp hy
    have hze : z = e := eq_of_key hn hmem hz (by simpa using hk)
    rw [hze, hsame]

theorem Owner.exists_of_isWaq {o : Owner} (h : o.isWaq = true) : ∃ q g, o = .waq q g := by
  cases o with
  | waq q g => exact ⟨q, g, rfl⟩
  | _ => exact nomatch h

/-- Settles O11: the choice is one of the highest class that waits, and after the grant to a WAQ entry the one
head that may be left undecided is the next of its chain. -/
theorem theArbiterGrants : Obligations.TheArbiterGrants := by
  intro s ident tie hr
  have hrun : exec (.arbiterGrant ident tie) s = .next (s.grant ident tie) :=
    whileRunning_running hr (·.grant ident tie)
  rw [hrun]
  refine ⟨fun hno => ?_, fun hfree hident hwait hsorted hg => ?_⟩
  · refine congrArg _ ?_
    unfold State.grant
    split
    case isFalse => rfl
    case isTrue hyes =>
      obtain ⟨hslot, hid⟩ := Bool.and_eq_true_iff.mp hyes
      have hslot : s.mport.outstanding.length < 64 := of_decide_eq_true hslot
      split
      case h_1 => rfl
      case h_2 r hc =>
        rcases hno with hno | hno | hno
        · omega
        · exact absurd (hno.symm.trans hid) (by decide)
        · have := MPort.choice_mem hc
          rw [hno] at this
          exact nomatch this
  · obtain ⟨r, hc⟩ := MPort.choice_exists hwait tie
    have hgrant : s.grant ident tie = ((s.send ident r).issue r).closeStep := by
      have hslot : s.mport.slotFree = true := decide_eq_true hfree
      simp only [State.grant, hslot, hident, hc, Bool.and_self, if_true]
    refine ⟨r, _, rfl, MPort.choice_mayGrant hsorted hc, ?_⟩
    rw [hgrant]
    by_cases hw : r.owner.isWaq = true
    · obtain ⟨q, g, ho⟩ := Owner.exists_of_isWaq hw
      have hissue : (s.send ident r).issue r = (s.issuing ident r q g).advance := by
        unfold State.issue
        rw [ho]
        rfl
      rw [hissue]
      have hjoins := ((s.issuing ident r q g).advance_joins).trans (State.grantCaptures_joins _)
      refine ⟨?_, by simp; rfl, by simp; rfl, congrArg (· + 1) hjoins.1, fun hn => absurd hw (by simp [hn]),
        fun q' g' ho' => ?_⟩
      · obtain ⟨_, _, _, _, h1⟩ := (s.issuing ident r q g).advance_frame
        obtain ⟨_, _, _, h2⟩ := (s.issuing ident r q g).advance.closeStep_frame
        rw [State.sameBeside, h2, h1]
        rfl
      · obtain ⟨rfl, rfl⟩ : q = q' ∧ g = g' := by simpa [ho] using ho'
        obtain ⟨-, hmore⟩ := hjoins
        refine ⟨State.issued_kept fun y hy hk => ?_, State.closeStep_headsDecided (State.advance_headsDecided _),
          hmore, fun x hx hd hn => ⟨fun hb => ?_, fun pre e post hs he hl hi => ?_⟩⟩
        · obtain ⟨z, -, rfl⟩ := List.mem_map.mp ((s.issuing_waq ident r) ▸ hy)
          exact WaqEntry.issuedBy_state.mpr (.inl (by simpa using hk))
        · obtain ⟨hmem, hkx⟩ := State.waqEntry_spec hx
          rw [State.advance_of_headsDecided (State.issuing_headsDecided hd hn hmem hkx hb),
            State.closeStep_of_capturesGranted (State.issuing_capturesGranted hg)]
          exact State.issuing_aged ..
        · obtain ⟨hmem, hkx⟩ := State.waqEntry_spec hx
          exact State.issuing_headDecided hd hn hg hmem hkx hs he hl hi
    · have hissue : (s.send ident r).issue r = s.send ident r := by
        unfold State.issue
        split
        case h_1 ho => exact absurd (by rw [ho]; rfl) hw
        case h_2 => rfl
      rw [hissue, State.closeStep_of_capturesGranted (s := s.send ident r) hg]
      refine ⟨rfl, rfl, rfl, rfl, fun _ => rfl, fun q g ho => absurd (by rw [ho]; rfl) hw⟩

end

end Sys2Proof.Machine
end

section
/-! PROOFS. The end of a capture read and of a record's writes. O14, O15, O18, O19. -/

namespace Sys2Proof.Machine

set_option Elab.async false

section

variable {s u : State} {t : Transaction} {e x : WaqEntry} {q : BitVec 4} {g : BitVec 6} {k : EventKind}
  {ident : BitVec 8} {r : Request} {a : MemAnswer} {c : Instr} {withheld : List Withheld} {rec : Record}
  {image : Line} {l : RecordLine} {p n : Nat}

/-! ### The end of a request -/

/-- The state in which the owner of an ended request acts (R147, R148). -/
def State.afterEnd (s : State) (ident : BitVec 8) (withheld : List Withheld) : State :=
  { s with
    mport :=
      { s.mport with
        outstanding := s.mport.outstanding.filter fun o => o.ident != ident
        withheld := withheld } }

theorem exec_of_ends (h : s.requestEnds ident a c withheld) (hr : s.resetPhase = .running)
    (ho : s.mport.outstandingOf ident = some r) :
    exec c s = .next ((s.afterEnd ident withheld).ownerActs r a).closeStep := State.exec_of_requestEnds h hr ho

theorem exec_answer (hr : s.resetPhase = .running) (ho : s.mport.outstandingOf ident = some r) (a : MemAnswer) :
    exec (.mPortAnswer ident a) s = .next ((s.freeRequest ident).ownerActs r a).closeStep :=
  exec_of_ends (.inl ⟨rfl, rfl⟩) hr ho

theorem State.ownerActs_capture (ho : r.owner = .capture q g) (a : MemAnswer) :
    s.ownerActs r a = s.captureRead q g a := by
  unfold State.ownerActs
  rw [ho]

theorem CaptureEntry.reads_eq_false_of_key {c : CaptureEntry} (h : (c.requester, c.tag) ≠ (q, g)) :
    c.reads q g = false := by
  simp only [ne_eq, Prod.mk.injEq, not_and] at h
  by_cases hq : c.requester = q
  · simp [CaptureEntry.reads, hq, h hq]
  · simp [CaptureEntry.reads, hq]

/-! ### The end of a capture without a record -/

/-- After the end of a capture read, of the key `(q, g)`, its write has left and no entry is READING it. -/
def State.Unread (s : State) (q : BitVec 4) (g : BitVec 6) (held : List CaptureEntry) : Prop :=
  (∀ y ∈ s.waq, y.key ≠ (q, g)) ∧
    ∀ c ∈ s.captures, c.reads q g = false ∧ (c ∈ held ∨ c.state = .reading)

theorem State.Unread.grantCaptures {held : List CaptureEntry} (h : s.Unread q g held) :
    s.grantCaptures.Unread q g held := by
  refine State.grantCaptures_induction (P := fun u => u.Unread q g held) (fun u e hu he _ => ⟨fun y hy => ?_, ?_⟩) h
  · obtain ⟨z, hz, rfl⟩ := List.mem_map.mp (show y ∈ setState u.waq _ _ _ from hy)
    split <;> exact hu.1 z hz
  · intro c hc
    rcases List.mem_append.mp (show c ∈ u.captures ++ _ from hc) with hc | hc
    · exact hu.2 c hc
    · rw [List.mem_singleton.mp hc]
      exact ⟨CaptureEntry.reads_eq_false_of_key (hu.1 e he), .inr rfl⟩

theorem State.Unread.advance {held : List CaptureEntry} (h : s.Unread q g held) : s.advance.Unread q g held :=
  ⟨State.advanceBy_keys _ h.1, by simpa using h.2⟩

theorem State.endCapture_unread (s : State) (t : Transaction) (k : EventKind) :
    (s.endCapture t k).Unread t.requester t.tag s.captures := by
  refine State.Unread.advance (State.Unread.grantCaptures ⟨fun y hy hk => ?_, fun c hc => ?_⟩)
  · have := (List.mem_filter.mp hy).2
    rw [(y.keyIs_iff _ _).mpr hk] at this
    exact nomatch this
  · obtain ⟨hc, hr⟩ := List.mem_filter.mp hc
    exact ⟨by simpa using hr, .inl hc⟩

/-- The answer ends the capture of a write with this event (R75, R76). -/
theorem State.captureRead_ends (hx : s.waqEntry q g = some e)
    (h : (e.marked = true ∧ k = .writeRefused) ∨ (e.marked = false ∧ a = .error ∧ k = .captureFailed)) :
    s.captureRead q g a = s.endCapture e.txn k := by
  unfold State.captureRead
  rw [hx]
  rcases h with ⟨hm, rfl⟩ | ⟨hm, rfl, rfl⟩ <;> simp [hm]

/-- Settles O14: the refusal's answer and event come first (`State.endCapture_refuses`), and the write's key
is gone (`State.endCapture_unread`). -/
theorem aFailedCaptureRefusesItsWrite : Obligations.AFailedCaptureRefusesItsWrite := by
  intro s ident r q g e a kind c withheld hr hends ho hown hx hkind
  obtain ⟨-, hkey⟩ := State.waqEntry_spec hx
  obtain ⟨hq, hg⟩ := Prod.mk.inj hkey
  obtain ⟨l, -, hans, hev⟩ := (s.afterEnd ident withheld).endCapture_refuses e.txn kind
  have hunread := (s.afterEnd ident withheld).endCapture_unread e.txn kind
  rw [hq, hg] at hunread
  have hrun : exec c s = .next ((s.afterEnd ident withheld).endCapture e.txn kind).closeStep := by
    rw [exec_of_ends hends hr ho, State.ownerActs_capture hown, State.captureRead_ends (by exact hx) hkind]
  refine ⟨_, l.map errorAnswer, l.map (writeRefusal s.epoch.counter), hrun, ?_, by simp; rfl, ?_, ?_, by simp,
    State.closeStep_keys hunread.1, State.closeStep_headsDecided (State.advance_headsDecided _), by simp; rfl,
    hunread.grantCaptures.2⟩
  · obtain ⟨_, _, _, _, _, h1⟩ := (s.afterEnd ident withheld).endCapture_frame e.txn kind
    obtain ⟨_, _, _, h2⟩ := ((s.afterEnd ident withheld).endCapture e.txn kind).closeStep_frame
    rw [State.sameBeside, h2, h1]
    rfl
  · rw [← hq, ← hg]
    simpa [State.afterEnd] using hans
  · rw [← hq]
    simpa [State.afterEnd, WaqEntry.line] using hev

/-! ### The allocation of a record -/

/-- An allocation that is not under pressure drops nothing (R31). -/
theorem State.relieve_of_room (h : s.journal.underPressure = false) (q : BitVec 4) : s.relieve q = s := by
  unfold State.relieve
  cases s.epoch.table.length with
  | zero => rfl
  | succ n =>
    unfold State.relieveBy
    rw [if_neg]
    rw [h]
    exact fun hn => nomatch hn.1

/-- What an allocation changes, and what it leaves (R26, R67, R73). -/
def State.placed (s a : State) : Prop :=
  a = { s with
    journal := a.journal, epoch := a.epoch, ltt := a.ltt, captures := a.captures, waq := a.waq
    mport := a.mport }

theorem CaptureEntry.staged_holds (c : CaptureEntry) (rec : Record) :
    ({ c with state := .staged rec } : CaptureEntry).holds rec.position = true := by
  simp [CaptureEntry.holds, CaptureState.record?]

/-- A record placed at head, which no Capture Buffer entry holds yet. -/
theorem State.place_allocated (hk : t.kind = .write)
    (hh : ∀ c ∈ s.captures, c.holds s.journal.head = false) (ident : BitVec 8) (image : Line) :
    Allocated s ((s.freeRequest ident).place t image).aged ident t image ∧
      s.placed ((s.freeRequest ident).place t image).aged := by
  have hready (u : State) : u.makeReady t =
      (u.setWaqState t.requester t.tag .ready).join (.waq t.requester t.tag) .write t.addr t.size t.mask t.data := by
    unfold State.makeReady State.joinForward
    rw [hk]
  have hcap : (s.captures.map fun c =>
      if c.reads t.requester t.tag then { c with state := .staged (recordAt s t image) } else c).map (fun c =>
        if c.holds s.journal.head then { c with state := .writing (recordAt s t image) .image 1 } else c) =
      s.captures.map fun c =>
        if c.reads t.requester t.tag then { c with state := .writing (recordAt s t image) .image 1 } else c := by
    rw [List.map_map]
    refine List.map_congr_left fun c hc => ?_
    by_cases hr : c.reads t.requester t.tag = true
    · have hs : ({ c with state := .staged (recordAt s t image) } : CaptureEntry).holds s.journal.head = true :=
        c.staged_holds (recordAt s t image)
      simp [hr, hs]
    · simp [hr, hh c hc]
  have hwaq : setState s.waq t.requester t.tag .ready =
      s.waq.map fun x => if x.key = (t.requester, t.tag) then { x with state := .ready } else x :=
    List.map_congr_left fun y _ => if_congr (y.keyIs_iff _ _) rfl rfl
  refine ⟨⟨?_, ?_, ?_, ?_, ?_, ?_⟩, ?_⟩
  case refine_4 =>
    rw [← hcap]
    simp only [State.place, hready]
    rfl
  case refine_5 =>
    rw [← hwaq]
    simp only [State.place, hready]
    rfl
  case refine_6 =>
    simp only [State.place, hready]
    simp [State.aged, State.writeLine, State.newRecord]
    rfl
  all_goals
    simp only [State.placed, State.place, hready]
    rfl

/-- With room below the high-water mark a capture's record is placed at once (R26). -/
theorem State.captureRead_places (hx : s.waqEntry t.requester t.tag = some e) (ht : e.txn = t)
    (hm : e.marked = false) (hroom : s.journal.underPressure = false) (image : Line) :
    s.captureRead t.requester t.tag (.okay image) = (s.place t image).checkTarget := by
  unfold State.captureRead State.allocate
  rw [hx]
  simp [hm, ht, State.relieve_of_room hroom, hroom]

theorem targetHolds_countRepeat (target : Nat) (table : List Checkpoint) :
    targetHolds target (countRepeat table) = targetHolds target table := by
  rcases List.eq_nil_or_concat table with rfl | ⟨old, d, rfl⟩
  · simp
  · simp [targetHolds, countRepeat, modifyOpen]

/-- A rollback whose target still holds goes on (R118). -/
theorem State.checkTarget_of_holds
    (h : ∀ w, s.engine = some w → targetHolds w.targetEpoch s.epoch.table = true) : s.checkTarget = s := by
  rcases s.checkTarget_cases with he | ⟨_, w, -, hw, -, -, ht, -⟩
  · exact he
  · exact absurd ((h w hw).symm.trans ht) (by decide)

/-- The allocation leaves the Capture Buffer's entries, so the writes that waited wait on. -/
theorem State.place_capturesGranted (h : s.capturesGranted) : (s.place t image).capturesGranted := by
  have hcap : (s.place t image).captures.length = s.captures.length := by
    simp only [State.place, State.writeLine]
    simp
  have hwaq : (s.place t image).waq = setState s.waq t.requester t.tag .ready := by
    simp only [State.place, State.writeLine]
    simp [State.makeReady_waq]
  refine h.imp (fun h => hcap ▸ h) fun h y hy => ?_
  rw [hwaq] at hy
  exact setState_states h (by decide) hy

/-- Settles O15: with room nothing is dropped, the record is placed (`State.place_allocated`), and the target
of a rollback holds. -/
theorem anAllocationPlacesARecord : Obligations.AnAllocationPlacesARecord := by
  intro s ident r e image hr ho hown hx hm hk hroom ht hh hg
  have hpress : (s.freeRequest ident).journal.underPressure = false :=
    decide_eq_false fun hp => by
      simp only [Config.reserve, State.freeRequest_journal] at hp
      omega
  have htarget : ((s.freeRequest ident).place e.txn image).checkTarget = (s.freeRequest ident).place e.txn image := by
    refine State.checkTarget_of_holds fun w hw => ?_
    have htable : ((s.freeRequest ident).place e.txn image).epoch.table =
        if ((s.freeRequest ident).newRecord e.txn image).repeated then countRepeat s.epoch.table
        else s.epoch.table := by
      simp [State.place]
    have hw : s.engine = some w := (State.place_kept (s := s.freeRequest ident)).2.2.symm.trans hw
    rw [htable]
    split
    · rw [targetHolds_countRepeat]
      exact ht w hw
    · exact ht w hw
  have hrun : exec (.mPortAnswer ident (.okay image)) s = .next ((s.freeRequest ident).place e.txn image).aged := by
    rw [exec_answer hr ho, State.ownerActs_capture hown,
      State.captureRead_places (s := s.freeRequest ident) hx rfl hm hpress, htarget,
      State.closeStep_of_capturesGranted (State.place_capturesGranted (s := s.freeRequest ident) hg)]
    rfl
  obtain ⟨hplaced, hframe⟩ := State.place_allocated hk hh ident image
  exact ⟨_, hrun, hplaced, hframe⟩

/-! ### The writes of a record -/

theorem State.ownerActs_image (ho : r.owner = .journalImage p) (a : MemAnswer) :
    s.ownerActs r a = s.recordWritten p .image a := by
  unfold State.ownerActs
  rw [ho]

theorem State.ownerActs_header (ho : r.owner = .journalHeader p) (a : MemAnswer) :
    s.ownerActs r a = s.recordWritten p .header a := by
  unfold State.ownerActs
  rw [ho]

theorem CaptureEntry.position_of_holds {c : CaptureEntry} (h : c.holds p = true)
    (hst : c.state = .writing rec l n) : rec.position = p := by
  simpa [CaptureEntry.position?, hst, CaptureState.record?] using (c.holds_iff p).mp h

theorem State.writeLine_capturesGranted (h : s.capturesGranted) : (s.writeLine rec l n).capturesGranted := by
  refine h.imp (fun h => ?_) fun h y hy => h y (by simpa using hy)
  cases l <;> simpa [State.writeLine] using h

/-- Settles O18: the image's answer asks for the header line, at which nothing is granted. -/
theorem theHeaderFollowsTheImage : Obligations.TheHeaderFollowsTheImage := by
  intro s ident r p c rec n d hr ho hown hc hst hg
  have hp : rec.position = p :=
    CaptureEntry.position_of_holds (List.find?_some (p := (CaptureEntry.holds · p)) hc) hst
  have hc' : (s.freeRequest ident).captures.find? (·.holds p) = some c := hc
  have hacts : (s.freeRequest ident).recordWritten p .image (.okay d) =
      (s.freeRequest ident).writeLine rec .header 1 := by
    unfold State.recordWritten
    rw [hc']
    simp only [hst]
  rw [exec_answer hr ho, State.ownerActs_image hown, hacts,
    State.closeStep_of_capturesGranted (State.writeLine_capturesGranted (s := s.freeRequest ident) hg), ← hp]
  rfl

/-! ### The grants of free Capture Buffer entries -/

/-- The Capture Buffer entry that a write takes (R71). -/
def WaqEntry.capture (e : WaqEntry) : CaptureEntry := ⟨e.line, e.txn.requester, e.txn.tag, .reading⟩

theorem State.withGrants_nil (s : State) : s.withGrants [] = s := by
  simp [State.withGrants]

/-- One grant, and those after it. -/
theorem State.withGrants_cons (s : State) (e : WaqEntry) (granted : List CaptureEntry) :
    (s.grantCapture e.txn).withGrants granted = s.withGrants (e.capture :: granted) := by
  have hwaq : (s.grantCapture e.txn).waq = setState s.waq e.txn.requester e.txn.tag .capturing := rfl
  have hkey (y : WaqEntry) : (e.capture.requester == y.txn.requester && e.capture.tag == y.txn.tag) =
      y.keyIs e.txn.requester e.txn.tag := by
    simp only [WaqEntry.capture, WaqEntry.keyIs, Bool.beq_comm (a := e.txn.requester),
      Bool.beq_comm (a := e.txn.tag)]
  have hmap : ((s.grantCapture e.txn).waq.map fun y =>
      if granted.any (fun g => g.requester == y.txn.requester && g.tag == y.txn.tag) then
        { y with state := .capturing } else y) =
      s.waq.map fun y =>
        if (e.capture :: granted).any (fun g => g.requester == y.txn.requester && g.tag == y.txn.tag) then
          { y with state := .capturing } else y := by
    rw [hwaq, setState, List.map_map]
    refine List.map_congr_left fun y _ => ?_
    rw [List.any_cons, hkey]
    by_cases hk : y.keyIs e.txn.requester e.txn.tag = true
    · simp [hk]
    · simp [hk]
  unfold State.withGrants
  rw [hmap]
  simp [State.grantCapture, WaqEntry.capture, WaqEntry.line]

/-- The other keys, where keys are distinct. -/
theorem keys_apart {l r : List WaqEntry} (hn : ((l ++ e :: r).map WaqEntry.key).Nodup) :
    ∀ x, x ∈ l ∨ x ∈ r → x.key ≠ e.key := by
  rw [List.map_append, List.map_cons] at hn
  obtain ⟨-, hr, hl⟩ := List.nodup_append.mp hn
  rintro x (hx | hx) hk
  · exact hl _ (List.mem_map_of_mem hx) _ List.mem_cons_self hk
  · exact (List.nodup_cons.mp hr).1 (hk ▸ List.mem_map_of_mem hx)

/-- The grants are those of R71: to writes that wait, in WAQ order. -/
theorem State.grantCapturesBy_spec (n : Nat) : ∀ s : State,
    ∃ granted, s.grantsInOrder granted ∧ s.grantCapturesBy n = s.withGrants granted ∧
      (16 ≤ s.captures.length + n → (s.grantCapturesBy n).capturesGranted) := by
  have nothing (s : State) : s.grantsInOrder [] :=
    ⟨List.forall_mem_nil _, fun _ => by simp⟩
  induction n with
  | zero => exact fun s => ⟨[], nothing s, s.withGrants_nil.symm, fun h => .inl h⟩
  | succ n ih =>
    intro s
    unfold State.grantCapturesBy
    split
    case isFalse hlen =>
      exact ⟨[], nothing s, s.withGrants_nil.symm, fun _ => .inl (not_lt.mp hlen)⟩
    case isTrue hlen =>
      split
      case h_1 hnone =>
        refine ⟨[], nothing s, s.withGrants_nil.symm, fun _ => .inr fun e he hs => ?_⟩
        exact List.find?_eq_none.mp hnone e he (by simp [hs])
      case h_2 e hsome =>
        obtain ⟨he, hs⟩ := State.oldestCaptureWait_spec hsome
        obtain ⟨granted, ⟨hmem, horder⟩, heq, hfull⟩ := ih (s.grantCapture e.txn)
        have hwaq : (s.grantCapture e.txn).waq = setState s.waq e.txn.requester e.txn.tag .capturing := rfl
        refine ⟨e.capture :: granted, ⟨?_, fun hn => ?_⟩, heq.trans (s.withGrants_cons e granted), fun hlen' => ?_⟩
        · refine List.forall_mem_cons.mpr ⟨⟨e, he, hs, rfl⟩, fun g hg => ?_⟩
          obtain ⟨y, hy, hys, rfl⟩ := hmem g hg
          rw [hwaq] at hy
          obtain ⟨z, hz, rfl⟩ := List.mem_map.mp hy
          split at hys
          case isTrue => exact nomatch hys
          case isFalse hk =>
            rw [if_neg hk]
            exact ⟨z, hz, hys, rfl⟩
        · obtain ⟨-, l, r, hw, hl⟩ := List.find?_eq_some_iff_append.mp hsome
          have hl : l.filter (fun y => y.state == .captureWait) = [] :=
            List.filter_eq_nil_iff.mpr fun y hy => by simpa using hl y hy
          have hset : setState s.waq e.txn.requester e.txn.tag .capturing =
              l ++ { e with state := .capturing } :: r := hw ▸ setState_split (keys_apart (hw ▸ hn)) rfl
          have hkeys : ((s.grantCapture e.txn).waq.map WaqEntry.key).Nodup := by
            rw [hwaq, keys_setState]
            exact hn
          have := horder hkeys
          rw [hwaq, hset] at this
          simp only [List.filter_append, hl, List.nil_append, List.filter_cons, reduceCtorEq, beq_iff_eq,
            if_false] at this
          rw [hw]
          simp only [List.filter_append, hl, List.nil_append, List.filter_cons, hs, beq_self_eq_true, if_true,
            List.length_cons, List.take_succ_cons, List.map_cons]
          exact congrArg _ this
        · refine hfull ?_
          simp only [State.grantCapture_captures, List.length_append, List.length_singleton]
          omega

theorem State.grantCaptures_spec (s : State) :
    ∃ granted, s.grantsInOrder granted ∧ s.grantCaptures = s.withGrants granted ∧
      s.grantCaptures.capturesGranted := by
  obtain ⟨granted, ho, he, hg⟩ := State.grantCapturesBy_spec 16 s
  exact ⟨granted, ho, he, hg (by omega)⟩

/-- Written stops where no record has ended (R30). -/
theorem passEnded_stops (n : Nat) : ∀ (w : Nat) (ended : List Nat), ended.length ≤ n →
    w ≤ (passEnded n w ended).1 ∧ (passEnded n w ended).1 ∉ ended := by
  induction n with
  | zero =>
    intro w ended h
    rw [List.eq_nil_of_length_eq_zero (Nat.le_zero.mp h)]
    exact ⟨le_rfl, List.not_mem_nil⟩
  | succ n ih =>
    intro w ended h
    unfold passEnded
    split
    case isFalse hw => exact ⟨le_rfl, fun hm => hw (List.contains_iff_mem.mpr hm)⟩
    case isTrue hw =>
      have hmem : w ∈ ended := List.contains_iff_mem.mp hw
      have hlen : (ended.filter fun p => p != w).length < ended.length :=
        List.length_filter_lt_length_iff_exists.mpr ⟨w, hmem, by simp⟩
      obtain ⟨hle, hn⟩ := ih (w + 1) (ended.filter fun p => p != w) (by omega)
      refine ⟨by omega, fun hm => hn (List.mem_filter.mpr ⟨hm, ?_⟩)⟩
      simp only [bne_iff_ne, ne_eq]
      omega

/-- What a record that ends makes of written and of the ended marks (R30). -/
structure Journal.Passes (j j' : Journal) (p : Nat) : Prop where
  same : j' = { j with written := j'.written, ended := j'.ended }
  forward : j.written ≤ j'.written
  passed : ∀ x, j.written ≤ x → x < j'.written → x = p ∨ x ∈ j.ended
  stops : j'.written ≠ p ∧ j'.written ∉ j.ended
  left : ∀ x, x ∈ j'.ended ↔ (x = p ∨ x ∈ j.ended) ∧ ¬(j.written ≤ x ∧ x < j'.written)

theorem State.endRecord_passes (s : State) (p : Nat) : s.journal.Passes (s.endRecord p).journal p := by
  have hj : (s.endRecord p).journal = { s.journal with
      written := (passEnded (insertPosition p s.journal.ended).length s.journal.written
        (insertPosition p s.journal.ended)).1
      ended := (passEnded (insertPosition p s.journal.ended).length s.journal.written
        (insertPosition p s.journal.ended)).2 } := by
    unfold State.endRecord
    simp
  obtain ⟨h1, h2, h3⟩ := passEnded_spec (insertPosition p s.journal.ended).length s.journal.written
    (insertPosition p s.journal.ended)
  obtain ⟨-, h4⟩ := passEnded_stops (insertPosition p s.journal.ended).length s.journal.written
    (insertPosition p s.journal.ended) le_rfl
  rw [mem_insertPosition, not_or] at h4
  rw [hj]
  exact ⟨rfl, h1, fun x hx hx' => (mem_insertPosition p x _).mp (h2 x hx hx'), h4,
    fun x => by rw [h3 x, mem_insertPosition]⟩

/-- The end of a record frees its Capture Buffer entry, which is granted again (R30, R71). -/
theorem State.endRecord_spec (s : State) (p : Nat) :
    ∃ granted, s.grantsInOrder granted ∧ (s.endRecord p).capturesGranted ∧
      s.endRecord p = State.withGrants
        { s with
          journal :=
            { s.journal with
              written := (s.endRecord p).journal.written
              ended := (s.endRecord p).journal.ended }
          captures := s.captures.filter fun x => !x.holds p } granted := by
  obtain ⟨granted, ho, he, hg⟩ := State.grantCaptures_spec
    { s with
      captures := s.captures.filter fun c => !c.holds p
      journal :=
        { s.journal with
          written := (passEnded (insertPosition p s.journal.ended).length s.journal.written
            (insertPosition p s.journal.ended)).1
          ended := (passEnded (insertPosition p s.journal.ended).length s.journal.written
            (insertPosition p s.journal.ended)).2 } }
  refine ⟨granted, ho, hg, ?_⟩
  have hend : s.endRecord p = State.withGrants _ granted := he
  rw [hend]
  rfl

/-- Settles O19: by what the end of a record passes and frees (`State.endRecord_spec`). -/
theorem writtenPassesTheEndedRecords : Obligations.WrittenPassesTheEndedRecords := by
  intro s ident r p c rec n d hr ho hown hc hst
  have hc' : (s.freeRequest ident).captures.find? (·.holds p) = some c := hc
  have hacts : (s.freeRequest ident).recordWritten p .header (.okay d) = (s.freeRequest ident).endRecord p := by
    unfold State.recordWritten
    rw [hc']
    simp only [hst]
  obtain ⟨granted, horder, hg, he⟩ := (s.freeRequest ident).endRecord_spec p
  obtain ⟨-, h1, h2, ⟨h3, h4⟩, h5⟩ := (s.freeRequest ident).endRecord_passes p
  refine ⟨((s.freeRequest ident).endRecord p).aged, granted, ?_, h1, h2, h3, h4, h5, horder, hg, ?_, ?_⟩
  · rw [exec_answer hr ho, State.ownerActs_header hown, hacts, State.closeStep_of_capturesGranted hg]
    rfl
  · rw [State.aged, he]
    rfl
  · have hback (x : State) (c : Nat) (hx : x.mport.ageClock = c) :
        { x.aged with mport := { x.aged.mport with ageClock := c } } = x := by
      subst hx
      rfl
    have hclock : ((s.freeRequest ident).endRecord p).mport.ageClock = s.mport.ageClock := by
      rw [he]
      rfl
    exact (hback _ _ hclock).trans he

end

end Sys2Proof.Machine
end


section
/-! PROOFS. Commands that start or refuse: SEAL and STOP, the checks of ROLLBACK and the start of a command
rollback, and READ_RECORD. -/
namespace Sys2Proof.Machine
set_option Elab.async false

/-! ### What a command finds in the state in which it has begun -/

@[simp] theorem State.begun_ops (s : State) (code : Byte) : (s.begun code).ops = s.ops := rfl
@[simp] theorem State.begun_gate (s : State) (code : Byte) : (s.begun code).gate = s.gate := rfl
@[simp] theorem State.begun_journal (s : State) (code : Byte) : (s.begun code).journal = s.journal := rfl
@[simp] theorem State.begun_busy (s : State) (code : Byte) :
    (s.begun code).busy = s.finished code .busy .none 0 := rfl

section
variable {s : State}

/-! ### SEAL and STOP -/

/-- What the SEAL command does, by the mode and the slot (R84, R87, R101). -/
theorem State.sealEpoch_outside (hm : s.epoch.mode ≠ .journaling) : s.sealEpoch = s.reject .wrongMode := by
  unfold State.sealEpoch
  cases h : s.epoch.mode with
  | passthrough => rfl
  | broken => rfl
  | journaling => exact absurd h hm

theorem State.sealEpoch_idle (hm : s.epoch.mode = .journaling) (hs : s.ops.slot = none) :
    s.sealEpoch = s.startGather .seal .command .empty true := by
  simp only [State.sealEpoch, hm, hs]

theorem State.sealEpoch_joins (hm : s.epoch.mode = .journaling) (hs : s.ops.slot = some sl)
    (ho : sl.operation = .seal) :
    s.sealEpoch = { s with ops := { s.ops with slot := some { sl with command := true } } } := by
  simp only [State.sealEpoch, hm, hs, ho]

theorem State.sealEpoch_busy (hm : s.epoch.mode = .journaling) (hs : s.ops.slot = some sl)
    (ho : sl.operation ≠ .seal) : s.sealEpoch = s.busy := by
  simp only [State.sealEpoch, hm, hs]
  cases h : sl.operation with
  | stop => rfl
  | rollback => rfl
  | verify => rfl
  | _ => exact absurd h ho

/-- What the STOP command does in JOURNALING, by the slot (R84, R107). -/
theorem State.stopJournaling_idle (hm : s.epoch.mode = .journaling) (hs : s.ops.slot = none) :
    s.stopJournaling = s.startGather .stop .command .empty true := by
  simp only [State.stopJournaling, hm, hs]

theorem State.stopJournaling_busy (hm : s.epoch.mode = .journaling) (hs : s.ops.slot = some sl) :
    s.stopJournaling = s.busy := by
  simp only [State.stopJournaling, hm, hs]

theorem exec_seal (hr : s.resetPhase = .running) (hc : s.mailbox.cmd = 0) :
    exec .seal s = .next (s.begun 0x06).sealEpoch :=
  runCommand_free hr hc _ _

theorem exec_stop (hr : s.resetPhase = .running) (hc : s.mailbox.cmd = 0) :
    exec .stop s = .next (s.begun 0x05).stopJournaling :=
  runCommand_free hr hc _ _

/-- Settles O22: by the mode and by what holds the slot. -/
theorem theSealAndStopCommands : Obligations.TheSealAndStopCommands := by
  intro s hr hc
  rw [exec_seal hr hc, exec_stop hr hc]
  refine ⟨fun hm => ?_, fun hm hs => ?_, fun sl hm hs ho => ?_, fun sl hm hs ho => ?_, fun hm => ?_,
    fun hm => ?_, fun hm hs => ?_, fun sl hm hs _ => ?_⟩
  · rw [State.sealEpoch_outside (s := s.begun 0x06) hm, State.begun_reject]
  · rw [State.sealEpoch_idle (s := s.begun 0x06) hm hs]
    rfl
  · rw [State.sealEpoch_joins (s := s.begun 0x06) hm hs ho]
    rfl
  · rw [State.sealEpoch_busy (s := s.begun 0x06) hm hs (by rcases ho with h | h <;> rw [h] <;> decide),
      State.begun_busy]
  · simp only [State.stopJournaling, State.begun_epoch, hm, State.begun_complete]
  · simp only [State.stopJournaling, State.begun_epoch, hm, State.begun_reject]
  · rw [State.stopJournaling_idle (s := s.begun 0x05) hm hs]
    rfl
  · rw [State.stopJournaling_busy (s := s.begun 0x05) hm hs, State.begun_busy]

/-! ### ROLLBACK -/

theorem exec_rollback (hr : s.resetPhase = .running) (hc : s.mailbox.cmd = 0) :
    exec .rollback s = .next (s.begun 0x07).rollbackTo :=
  runCommand_free hr hc _ _

theorem State.rollbackTo_outside (hm : s.epoch.mode ≠ .journaling) : s.rollbackTo = s.reject .wrongMode := by
  unfold State.rollbackTo
  cases h : s.epoch.mode with
  | passthrough => rfl
  | broken => rfl
  | journaling => exact absurd h hm

theorem State.rollbackTo_epochLimit (hm : s.epoch.mode = .journaling)
    (hl : 2 ^ 48 - 1 ≤ s.epoch.counter) : s.rollbackTo = s.reject .epochLimit := by
  have hn : ¬s.epoch.counter < Config.epochLimit := Nat.not_lt.mpr hl
  simp only [State.rollbackTo, hm, if_neg hn]

/-- What ROLLBACK does with the entry that its target names, if any (R113). -/
def State.rollbackToward (s : State) : Option Checkpoint → State
  | none => s.reject .noSuchCheckpoint
  | some c =>
    if c.condition = .usable then s.requestRollback c
    else s.reject (if c.condition = .damaged then .checkpointDamaged else .checkpointLost)

/-- Below the epoch limit the target and its condition decide (R113). -/
theorem State.rollbackTo_below (hm : s.epoch.mode = .journaling) (hl : s.epoch.counter < 2 ^ 48 - 1) :
    s.rollbackTo = s.rollbackToward (s.targetEntry (rollbackTarget s.mailbox.copy)) := by
  have hlt : s.epoch.counter < Config.epochLimit := hl
  simp only [State.rollbackTo, hm, if_pos hlt]
  cases s.targetEntry (rollbackTarget s.mailbox.copy) with
  | none => rfl
  | some c =>
    simp only [State.rollbackToward]
    cases c.condition with
    | usable => rfl
    | damaged => rfl
    | lost => rfl

theorem State.targetEntry_eq_none {target : Nat} (h0 : target ≠ 0)
    (h : ∀ c ∈ s.epoch.table, c.epoch ≠ target) : s.targetEntry target = none := by
  rw [State.targetEntry, if_neg h0, List.find?_eq_none]
  simpa using h

theorem State.requestRollback_busy (hs : s.ops.slot = some sl) (ho : sl.operation = .rollback) :
    s.requestRollback c = s.busy := by
  simp only [State.requestRollback, hs, ho]

/-- Settles O31: by the checks of R113 in their order, and by what holds the slot. -/
theorem aRollbackIsRefused : Obligations.ARollbackIsRefused := by
  intro s hr hc
  rw [exec_rollback hr hc]
  refine ⟨fun hm => by rw [State.rollbackTo_outside (s := s.begun 0x07) hm, State.begun_reject], fun hm => ⟨fun hl => ?_,
    fun hl => ?_⟩⟩
  · rw [State.rollbackTo_epochLimit (s := s.begun 0x07) hm hl, State.begun_reject]
  · rw [State.rollbackTo_below (s := s.begun 0x07) hm hl]
    have hsame (target : Nat) : (s.begun 0x07).targetEntry target = s.targetEntry target := rfl
    rw [hsame, State.begun_copy]
    refine ⟨fun h0 hnone => ?_, fun c hfound => ⟨fun hcond => ?_, fun hcond => ?_, fun sl hcond hs ho => ?_⟩⟩
    · rw [State.targetEntry_eq_none h0 hnone]
      rfl
    · simp only [hfound, State.rollbackToward, hcond, reduceCtorEq, if_true, if_false, State.begun_reject]
    · simp only [hfound, State.rollbackToward, hcond, reduceCtorEq, if_false, State.begun_reject]
    · simp only [hfound, State.rollbackToward, hcond, if_true]
      rw [State.requestRollback_busy (s := s.begun 0x07) hs ho, State.begun_busy]

theorem GateState.holdable_iff (g : GateState) : g.holdable = true ↔ g = .pass ∨ g = .holdTracked := by
  cases g <;> decide

/-- The start of a command rollback (R50, R116). -/
theorem State.startCommandRollback_eq (s : State) (c : Checkpoint) :
    s.startCommandRollback c =
      { s with
        ops :=
          { s.ops with
            slot := some
              ⟨.rollback, .command, .drain, ⟨false, false, false⟩, true,
                s.gate.state == .pass || s.gate.state == .holdTracked⟩ }
        gate :=
          { s.gate with
            state :=
              if s.gate.state = .pass ∨ s.gate.state = .holdTracked then .holdAll else s.gate.state }
        engine := some ⟨c.epoch, c.start, none, ⟨.idle, .idle⟩, 0⟩
        timer := { s.timer with countdown := s.timer.countdown.pause }
        recovery := ⟨.inProgress, .command, .drain, c.epoch, 0, 0, 0, 0, 0⟩ } := by
  have hmoved : s.gate.state.holdable = (s.gate.state == .pass || s.gate.state == .holdTracked) := by
    cases s.gate.state <;> rfl
  unfold State.startCommandRollback
  by_cases h : s.gate.state = .pass ∨ s.gate.state = .holdTracked
  · simp only [if_pos h, (GateState.holdable_iff _).mpr h, if_true, ← hmoved]
    rfl
  · have h' : s.gate.state.holdable = false := Bool.eq_false_iff.mpr fun hg => h ((GateState.holdable_iff _).mp hg)
    simp only [if_neg h, h', ← hmoved]
    rfl

/-- Settles O32: the start of a command rollback (`State.startCommandRollback_eq`) on an idle slot or over an
automatic seal. -/
theorem aCommandRollbackStarts : Obligations.ACommandRollbackStarts := by
  intro s c owed hr hc hm hl hfound hcond hslot
  have hfound' : (s.begun 0x07).targetEntry (rollbackTarget (s.begun 0x07).mailbox.copy) = some c := hfound
  rw [exec_rollback hr hc, State.rollbackTo_below (s := s.begun 0x07) hm hl, hfound']
  simp only [State.rollbackToward, hcond, if_true]
  rcases hslot with ⟨hs, rfl⟩ | ⟨sl, hs, ho, rfl⟩
  · simp only [State.requestRollback, State.begun_ops, hs]
    rw [State.startCommandRollback_eq]
    rfl
  · simp only [State.requestRollback, State.begun_ops, hs, ho]
    rw [State.startCommandRollback_eq]
    rfl

/-! ### READ_RECORD -/

theorem exec_readRecord (hr : s.resetPhase = .running) (hc : s.mailbox.cmd = 0) :
    exec .readRecord s = .next (s.begun 0x0C).readRecordAt :=
  runCommand_free hr hc _ _

/-- The model's positions of READ_RECORD are those of R142. -/
theorem State.inspectable_eq_inRange (s : State) (p : Nat) : s.inspectable p = inRange s p := rfl

theorem inRange_iff (s : State) (p : Nat) : inRange s p = true ↔
    (s.epoch.mode = .journaling ∧ s.journal.tail ≤ p ∧ p < s.journal.written) ∨
      (s.epoch.mode = .broken ∧ s.journal.tail ≤ p ∧ p < s.journal.head) := by
  unfold inRange
  cases s.epoch.mode with
  | passthrough => simp
  | journaling => simp
  | broken => simp

theorem State.readRecordAt_outside (hm : s.epoch.mode ≠ .passthrough)
    (hp : inRange s (recordPosition s.mailbox.copy) = false) : s.readRecordAt = s.reject .badParam := by
  have hp' : s.inspectable (recordPosition s.mailbox.copy) = false := hp
  unfold State.readRecordAt
  cases h : s.epoch.mode with
  | passthrough => exact absurd h hm
  | journaling => simp [hp']
  | broken => simp [hp']

theorem State.readRecordAt_within (hp : inRange s (recordPosition s.mailbox.copy) = true) :
    s.readRecordAt = (State.joinRecordReads
      { s with inspect := some { position := recordPosition s.mailbox.copy, current := .first } }
      .inspectImage .inspectHeader (recordPosition s.mailbox.copy)).closeStep := by
  have hp' : s.inspectable (recordPosition s.mailbox.copy) = true := hp
  unfold State.readRecordAt
  cases h : s.epoch.mode with
  | passthrough => simp [inRange, h] at hp
  | journaling => simp [hp']
  | broken => simp [hp']

/-- Settles O45: by the model's positions being those of R142 (`inRange_iff`). -/
theorem theReadRecordCommand : Obligations.TheReadRecordCommand := by
  rintro s p hr hc rfl
  have hrange : inRange (s.begun 0x0C) (recordPosition (s.begun 0x0C).mailbox.copy) =
      inRange s (recordPosition s.mailbox.param) := rfl
  rw [exec_readRecord hr hc]
  refine ⟨fun hm => ?_, fun hout => ?_, fun hin hg => ?_⟩
  · simp only [State.readRecordAt, State.begun_epoch, hm, State.begun_reject]
  · have hno : inRange s (recordPosition s.mailbox.param) = false := by
      rw [Bool.eq_false_iff, ne_eq, inRange_iff]
      rcases hout with ⟨hm, hp⟩ | ⟨hm, hp⟩
      · rintro (⟨-, h⟩ | ⟨h, -⟩)
        · exact hp h
        · rw [hm] at h
          exact nomatch h
      · rintro (⟨h, -⟩ | ⟨-, h⟩)
        · rw [hm] at h
          exact nomatch h
        · exact hp h
    have hm : s.epoch.mode ≠ .passthrough := by
      rcases hout with ⟨hm, -⟩ | ⟨hm, -⟩ <;> rw [hm] <;> decide
    rw [State.readRecordAt_outside (s := s.begun 0x0C) hm hno, State.begun_reject]
  · have hyes := (inRange_iff s (recordPosition s.mailbox.param)).mpr hin
    rw [State.readRecordAt_within (s := s.begun 0x0C) hyes, State.closeStep_of_capturesGranted]
    · simp only [State.joinRecordReads, State.joinLineRead, State.join, List.append_assoc]
      rfl
    · exact hg

end

end Sys2Proof.Machine
end


section
/-! PROOFS. SET_REGION: the checks of R44, the result data and the shadow entry written. -/
namespace Sys2Proof.Machine
set_option Elab.async false

theorem LineMode.code_eq_regionModeCode (m : LineMode) : m.code = regionModeCode m := by
  cases m <;> rfl

theorem lineModeOf_eq_some_iff {code : Nat} {m : LineMode} :
    lineModeOf code = some m ↔ regionModeCode m = code := by
  unfold lineModeOf
  split <;> cases m <;> simp_all [regionModeCode] <;> omega

theorem lineModeOf_eq_none {code : Nat} (h : code < 1 ∨ 3 < code) : lineModeOf code = none := by
  cases hm : lineModeOf code with
  | none => rfl
  | some m =>
    have := lineModeOf_eq_some_iff.mp hm
    cases m <;> simp only [regionModeCode] at this <;> omega

theorem RegionEntry.bytes_eq_entryFields (e : RegionEntry) : e.bytes = entryFields e := by
  cases e <;> simp only [RegionEntry.bytes, entryFields, LineMode.code_eq_regionModeCode]

theorem regionData_eq_regionFields (r : Regions) : regionData r = regionFields r := by
  rw [regionData, regionFields, Unmapped.code_eq_unmappedCode,
    show RegionEntry.bytes = entryFields from funext RegionEntry.bytes_eq_entryFields]

/-- The result data shows the shadow table, which copying leaves as it is. -/
@[simp] theorem regionFields_copied (r : Regions) : regionFields r.copied = regionFields r := rfl

/-- Some entry of a list is valid and shares a line with a range (R44). -/
theorem any_meets_iff (entries : List RegionEntry) (first last : Nat) :
    entries.any (RegionEntry.meets first last) = true ↔
      ∃ m b l, RegionEntry.valid m b l ∈ entries ∧ first ≤ l.toNat ∧ b.toNat ≤ last := by
  rw [List.any_eq_true]
  constructor
  · rintro ⟨e, he, hm⟩
    cases e with
    | notValid m b l => exact absurd hm Bool.false_ne_true
    | valid m b l =>
      exact ⟨m, b, l, he, by simpa [RegionEntry.meets, rangesOverlap] using hm⟩
  · rintro ⟨m, b, l, he, hm⟩
    exact ⟨_, he, by simpa [RegionEntry.meets, rangesOverlap] using hm⟩

section
variable {s : State} {p : RegionParams}

/-- The parameters of a valid entry pass the checks of R44 before those for an overlap. -/
structure RegionParams.Fits (p : RegionParams) (mode : LineMode) : Prop where
  index : p.index ≤ 7
  valid : p.valid = true
  mode : regionModeCode mode = p.mode
  base_aligned : p.base % 64 = 0
  limit_aligned : (p.limit + 1) % 64 = 0
  ordered : p.base ≤ p.limit
  inside : p.limit ≤ 2 ^ 34 - 1

theorem State.regionCheck_index (h : 7 < p.index) : s.regionCheck p = .error .badParam := by
  rw [State.regionCheck, if_pos h]

theorem State.regionCheck_notValid (h : p.index ≤ 7) (hv : p.valid = false) :
    s.regionCheck p = .ok (.notValid (lineModeNumber (Config.notValidMode s.draws))
      (Config.notValidBase s.draws) (Config.notValidLimit s.draws)) := by
  rw [State.regionCheck, if_neg (by omega), if_neg (by simp [hv])]

theorem State.regionCheck_badParam (h : p.index ≤ 7) (hv : p.valid = true)
    (hbad : p.mode < 1 ∨ 3 < p.mode ∨ p.base % 64 ≠ 0 ∨ (p.limit + 1) % 64 ≠ 0 ∨ p.limit < p.base ∨
      2 ^ 34 - 1 < p.limit) : s.regionCheck p = .error .badParam := by
  rw [State.regionCheck, if_neg (by omega), if_pos hv]
  cases hm : lineModeOf p.mode with
  | none => rfl
  | some m =>
    have hmode : ¬(p.mode < 1 ∨ 3 < p.mode) := fun hout => by
      rw [lineModeOf_eq_none hout] at hm
      exact nomatch hm
    by_cases halign : p.base % 64 ≠ 0 ∨ (p.limit + 1) % 64 ≠ 0
    · simp only [if_pos halign]
    · have hrange : ¬(p.base ≤ p.limit ∧ p.limit ≤ 2 ^ 34 - 1) := by omega
      simp only [if_neg halign, if_pos hrange]

/-- The journal area and the other shadow entries decide about parameters that fit (R44). -/
theorem State.regionCheck_of_fits {mode : LineMode} (h : p.Fits mode) :
    s.regionCheck p =
      if (otherEntries s.regions.shadow p.index).any (RegionEntry.meets p.base p.limit) = true ∨
          (s.journal.capacity ≠ 0 ∧ s.journal.base / 64 ≤ p.limit ∧
            p.base < s.journal.base / 64 + 2 * s.journal.capacity) then .error .overlap
      else .ok (.valid mode (BitVec.ofNat 34 p.base) (BitVec.ofNat 34 p.limit)) := by
  have halign : ¬(p.base % 64 ≠ 0 ∨ (p.limit + 1) % 64 ≠ 0) :=
    not_or.mpr ⟨not_not.mpr h.base_aligned, not_not.mpr h.limit_aligned⟩
  have hrange : ¬¬(p.base ≤ p.limit ∧ p.limit ≤ 2 ^ 34 - 1) := not_not.mpr ⟨h.ordered, h.inside⟩
  have hjournal : ((s.journal.configured && rangesOverlap p.base p.limit (s.journal.base / 64)
      (s.journal.base / 64 + 2 * s.journal.capacity - 1)) = true) ↔
      (s.journal.capacity ≠ 0 ∧ s.journal.base / 64 ≤ p.limit ∧
        p.base < s.journal.base / 64 + 2 * s.journal.capacity) := by
    simp only [Journal.configured, rangesOverlap, Bool.and_eq_true, bne_iff_ne, decide_eq_true_eq]
    omega
  have hindex : ¬7 < p.index := by have := h.index; omega
  rw [State.regionCheck, if_neg hindex, if_pos h.valid, lineModeOf_eq_some_iff.mpr h.mode]
  simp only [if_neg halign, if_neg hrange, hjournal]
  by_cases ho : (otherEntries s.regions.shadow p.index).any (RegionEntry.meets p.base p.limit) = true
  · rw [if_pos ho, if_pos (.inl ho)]
  · rw [if_neg ho]
    split
    case isTrue hj => rw [if_pos (.inr hj)]
    case isFalse hj => rw [if_neg (not_or.mpr ⟨ho, hj⟩)]

theorem State.setRegion_refused {why : Reason} (h : s.regionCheck (regionParams s.mailbox.copy) = .error why) :
    s.setRegion = s.complete .rejected why (regionFields s.regions) := by
  simp only [State.setRegion, h, regionData_eq_regionFields]

theorem State.setRegion_taken {e : RegionEntry}
    (h : s.regionCheck (regionParams s.mailbox.copy) = .ok e) :
    s.setRegion =
      State.complete
        { s with
          regions := regionsWith s (regionParams s.mailbox.copy).index e
          draws := if (regionParams s.mailbox.copy).valid then s.draws else s.draws + 1 }
        .done .none (regionFields (regionsWith s (regionParams s.mailbox.copy).index e)) := by
  have hdata : regionFields (regionsWith s (regionParams s.mailbox.copy).index e) = regionFields
      { s.regions with shadow := s.regions.shadow.setIfInBounds (regionParams s.mailbox.copy).index e } := by
    unfold regionsWith
    split <;> rfl
  simp only [State.setRegion, h, regionData_eq_regionFields, State.copyIfIdle_eq, hdata]
  rfl

theorem exec_setRegion (hr : s.resetPhase = .running) (hc : s.mailbox.cmd = 0) :
    exec .setRegion s = .next (s.begun 0x02).setRegion :=
  runCommand_free hr hc _ _

/-- The checks read the state in which the command has begun as the state before it. -/
theorem State.begun_regionCheck (s : State) (code : Byte) (p : RegionParams) :
    (s.begun code).regionCheck p = s.regionCheck p := rfl

theorem exec_setRegion_refused {why : Reason} (hr : s.resetPhase = .running) (hc : s.mailbox.cmd = 0)
    (h : s.regionCheck (regionParams s.mailbox.param) = .error why) :
    exec .setRegion s = .next (s.finished 0x02 .rejected why (regionFields s.regions)) := by
  rw [exec_setRegion hr hc, State.setRegion_refused (s := s.begun 0x02) h, State.begun_complete]
  rfl

theorem exec_setRegion_taken {e : RegionEntry} (hr : s.resetPhase = .running) (hc : s.mailbox.cmd = 0)
    (h : s.regionCheck (regionParams s.mailbox.param) = .ok e) :
    exec .setRegion s = .next (State.finished
      { s with
        regions := regionsWith s (regionParams s.mailbox.param).index e
        draws := if (regionParams s.mailbox.param).valid then s.draws else s.draws + 1 } 0x02 .done .none
      (regionFields (regionsWith s (regionParams s.mailbox.param).index e))) := by
  rw [exec_setRegion hr hc, State.setRegion_taken (s := s.begun 0x02) h]
  rfl

/-- Settles O40: by the first check of R44 that fails, and the result data field by field. -/
theorem theSetRegionCommand : Obligations.TheSetRegionCommand := by
  rintro s p hr hc rfl
  refine ⟨fun hi => exec_setRegion_refused hr hc (State.regionCheck_index hi), fun hi hv => ?_,
    fun hi hv => ⟨fun hbad => exec_setRegion_refused hr hc (State.regionCheck_badParam hi hv hbad),
      fun mode hm hb hl hle hin => ?_⟩⟩
  · refine ⟨lineModeNumber (Config.notValidMode s.draws), Config.notValidBase s.draws,
      Config.notValidLimit s.draws, _, rfl, ?_⟩
    rw [exec_setRegion_taken hr hc (State.regionCheck_notValid hi hv), if_neg (by simp [hv])]
  · have hfits : (regionParams s.mailbox.param).Fits mode := ⟨hi, hv, hm, hb, hl, hle, hin⟩
    have hcheck := State.regionCheck_of_fits (s := s) hfits
    refine ⟨fun hclear hj => ?_, fun hmeets => ?_⟩
    · rw [if_neg] at hcheck
      · rw [exec_setRegion_taken hr hc hcheck, if_pos hv]
      · rw [any_meets_iff]
        rintro (⟨m, b, l, he, h1, h2⟩ | ⟨h0, h1, h2⟩)
        · have := hclear m b l he
          omega
        · omega
    · rw [if_pos (hmeets.imp_left (any_meets_iff (otherEntries s.regions.shadow _) _ _).mpr)] at hcheck
      exact exec_setRegion_refused hr hc hcheck

end

end Sys2Proof.Machine
end


section
/-! PROOFS. Bytes and fields: a byte of a register's field, the fields of a record's header, and the bytes a
write transaction leaves. With them the record as built, the register writes and the register window. -/
namespace Sys2Proof.Machine
set_option Elab.async false

/-! ### A value placed in a wider word -/

theorem extractLsb'_placed {m w k a n : Nat} (x : BitVec m) (hk : k ≤ a) (hw : a + n ≤ w) :
    ((x.setWidth w) <<< k).extractLsb' a n = x.extractLsb' (a - k) n := by
  apply BitVec.eq_of_getLsbD_eq
  intro i hi
  have h1 : a + i < w := by omega
  have h2 : ¬a + i < k := by omega
  have h3 : a + i - k = a - k + i := by omega
  simp [hi, h1, h2, h3]

theorem extractLsb'_placed_same {m w k : Nat} (x : BitVec m) (hw : k + m ≤ w) :
    ((x.setWidth w) <<< k).extractLsb' k m = x := by
  rw [extractLsb'_placed x le_rfl hw, Nat.sub_self, BitVec.extractLsb'_eq_self]

theorem extractLsb'_placed_other {m w k a n : Nat} (x : BitVec m) (h : a + n ≤ k ∨ k + m ≤ a) :
    ((x.setWidth w) <<< k).extractLsb' a n = 0 := by
  apply BitVec.eq_of_getLsbD_eq
  intro i hi
  simp only [BitVec.getLsbD_extractLsb', hi, decide_true, Bool.true_and, BitVec.getLsbD_shiftLeft,
    BitVec.getLsbD_setWidth, BitVec.ofNat_eq_ofNat, BitVec.getLsbD_zero]
  rcases h with h | h
  · rw [decide_eq_true (show a + i < k by omega)]
    simp
  · rw [BitVec.getLsbD_of_ge x (a + i - k) (by omega)]
    simp

/-! ### A byte of a block -/

theorem byteAt_or {w : Nat} (x y : BitVec w) (k : Nat) : byteAt (x ||| y) k = byteAt x k ||| byteAt y k :=
  BitVec.extractLsb'_or ..

theorem byteAt_zero {w : Nat} (k : Nat) : byteAt (0 : BitVec w) k = 0 := by
  simp [byteAt]

theorem byteAt_byte (x : Byte) : byteAt x 0 = x := BitVec.extractLsb'_eq_self

theorem byteAt_of_ge {w : Nat} (x : BitVec w) {k : Nat} (h : w ≤ 8 * k) : byteAt x k = 0 := by
  apply BitVec.eq_of_getLsbD_eq
  intro i hi
  rw [byteAt, BitVec.getLsbD_extractLsb', BitVec.getLsbD_of_ge x _ (by omega)]
  simp

theorem byteAt_setWidth {w v : Nat} (x : BitVec w) (h : w ≤ v) (k : Nat) :
    byteAt (x.setWidth v) k = byteAt x k := by
  apply BitVec.eq_of_getLsbD_eq
  intro i hi
  simp only [byteAt, BitVec.getLsbD_extractLsb', BitVec.getLsbD_setWidth]
  by_cases hv : 8 * k + i < v
  · simp [hv]
  · rw [BitVec.getLsbD_of_ge x _ (by omega)]
    simp

theorem byteAt_toNat {w : Nat} (x : BitVec w) (k : Nat) :
    (byteAt x k).toNat = x.toNat / 2 ^ (8 * k) % 256 := by
  rw [byteAt, BitVec.extractLsb'_toNat, Nat.shiftRight_eq_div_pow]

/-- A block is known by its bytes. -/
theorem eq_of_byteAt {n : Nat} {x y : BitVec (8 * n)} (h : ∀ k, k < n → byteAt x k = byteAt y k) : x = y := by
  apply BitVec.eq_of_getLsbD_eq
  intro i hi
  have hbit := congrArg (BitVec.getLsbD · (i % 8)) (h (i / 8) (by omega))
  simpa [byteAt, Nat.mod_lt i, Nat.div_add_mod] using hbit

theorem ofNat_mod_eq_setWidth {m w : Nat} (h : m ≤ w) (v : Nat) :
    BitVec.ofNat w (v % 2 ^ m) = (BitVec.ofNat m v).setWidth w := by
  apply BitVec.eq_of_toNat_eq
  have hlt : v % 2 ^ m < 2 ^ w :=
    lt_of_lt_of_le (Nat.mod_lt _ (Nat.two_pow_pos m)) (Nat.pow_le_pow_right Nat.two_pos h)
  rw [BitVec.toNat_ofNat, BitVec.toNat_setWidth, BitVec.toNat_ofNat, Nat.mod_eq_of_lt hlt]

theorem field_eq (off bytes v : Nat) (h : bytes ≤ 96) :
    field off bytes v = ((BitVec.ofNat (8 * bytes) v).setWidth 768) <<< (8 * off) := by
  rw [field, ofNat_mod_eq_setWidth (by omega)]

theorem byteAt_field {off bytes k : Nat} (v : Nat) (h : off + bytes ≤ 96) (h1 : off ≤ k)
    (h2 : k < off + bytes) : byteAt (field off bytes v) k = byteAt (BitVec.ofNat (8 * bytes) v) (k - off) := by
  rw [field_eq off bytes v (by omega), byteAt, extractLsb'_placed _ (by omega) (by omega), byteAt,
    show 8 * k - 8 * off = 8 * (k - off) by omega]

theorem byteAt_field_other {off bytes k : Nat} (v : Nat) (hb : bytes ≤ 96)
    (h : k < off ∨ off + bytes ≤ k) : byteAt (field off bytes v) k = 0 := by
  rw [field_eq off bytes v hb, byteAt, extractLsb'_placed_other _ (by omega)]

/-! ### A record as built -/

section
variable {epoch position : Nat} {line : LineIndex} {requester : BitVec 4} {repeated : Bool} {image : Line}

/-- The header as five fields and a check (R23). -/
theorem buildHeader_eq (epoch position : Nat) (line : LineIndex) (requester : BitVec 4) (repeated : Bool)
    (image : Line) :
    buildHeader epoch position line requester repeated image =
      (((BitVec.ofNat 48 epoch).setWidth 128 <<< 0 ||| line.setWidth 128 <<< 48 |||
        requester.setWidth 128 <<< 88 ||| (BitVec.ofBool repeated).setWidth 128 <<< 96 |||
        (BitVec.ofNat 8 position).setWidth 128 <<< 104) |||
        (checkValue image (headerFields epoch position line requester repeated)).setWidth 128 <<< 112) := by
  unfold buildHeader headerFields
  cases repeated <;> simp

/-- The check leaves bytes 0 to 13 of the header as they are (R24). -/
theorem checkValue_buildHeader : checkValue image (buildHeader epoch position line requester repeated image) =
    checkValue image (headerFields epoch position line requester repeated) := by
  have hbytes (h : BitVec 128) (c : BitVec 16) :
      bytesOf 14 (h ||| c.setWidth 128 <<< 112) = bytesOf 14 h := by
    refine List.map_congr_left fun k hk => ?_
    have hk : k < 14 := List.mem_range.mp hk
    have hzero : byteAt (c.setWidth 128 <<< 112) k = 0 := extractLsb'_placed_other c (by omega)
    rw [byteAt_or, hzero]
    exact BitVec.or_zero
  rw [checkValue, buildHeader, hbytes]
  rfl

theorem headerEpoch_buildHeader (h : epoch < 2 ^ 48) :
    headerEpoch (buildHeader epoch position line requester repeated image) = epoch := by
  rw [headerEpoch, buildHeader_eq]
  simp (disch := omega) only [BitVec.extractLsb'_or, extractLsb'_placed_same, extractLsb'_placed_other,
    BitVec.ofNat_eq_ofNat, BitVec.or_zero, BitVec.toNat_ofNat, Nat.mod_eq_of_lt]

theorem headerLine_buildHeader :
    (headerLine (buildHeader epoch position line requester repeated image)).toNat = line.toNat := by
  rw [headerLine, buildHeader_eq]
  simp (disch := omega) only [BitVec.extractLsb'_or, extractLsb'_placed (m := 34), extractLsb'_placed_other,
    BitVec.ofNat_eq_ofNat, BitVec.or_zero, BitVec.zero_or, BitVec.extractLsb'_toNat, Nat.sub_self,
    Nat.shiftRight_zero]
  omega

theorem headerRequester_buildHeader :
    (headerRequester (buildHeader epoch position line requester repeated image)).toNat = requester.toNat := by
  rw [headerRequester, buildHeader_eq]
  simp (disch := omega) only [BitVec.extractLsb'_or, extractLsb'_placed (m := 4), extractLsb'_placed_other,
    BitVec.ofNat_eq_ofNat, BitVec.or_zero, BitVec.zero_or, BitVec.extractLsb'_toNat, Nat.sub_self,
    Nat.shiftRight_zero]
  omega

theorem headerFlags_buildHeader :
    headerFlags (buildHeader epoch position line requester repeated image) = BitVec.ofNat 8 (bit repeated) := by
  rw [headerFlags, buildHeader_eq]
  simp (disch := omega) only [BitVec.extractLsb'_or, extractLsb'_placed (m := 1), extractLsb'_placed_other,
    BitVec.ofNat_eq_ofNat, BitVec.or_zero, BitVec.zero_or, Nat.sub_self]
  cases repeated <;> decide

theorem headerLap_buildHeader :
    headerLap (buildHeader epoch position line requester repeated image) = BitVec.ofNat 8 position := by
  rw [headerLap, buildHeader_eq]
  simp (disch := omega) only [BitVec.extractLsb'_or, extractLsb'_placed_same, extractLsb'_placed_other,
    BitVec.ofNat_eq_ofNat, BitVec.or_zero, BitVec.zero_or]

theorem headerCheck_buildHeader :
    headerCheck (buildHeader epoch position line requester repeated image) =
      checkValue image (headerFields epoch position line requester repeated) := by
  rw [headerCheck, buildHeader_eq]
  simp (disch := omega) only [BitVec.extractLsb'_or, extractLsb'_placed_same, extractLsb'_placed_other,
    BitVec.ofNat_eq_ofNat, BitVec.zero_or]

theorem lineHeader_headerLineOf (h : BitVec 128) : lineHeader (headerLineOf h) = h := by
  have := extractLsb'_placed_same (w := 512) (k := 0) h (by omega)
  rwa [BitVec.shiftLeft_zero] at this

end

/-- Settles O53: each field of the header is cut out of it again, and the four tests follow. -/
theorem aBuiltRecordPasses : Obligations.ABuiltRecordPasses := by
  intro epoch position line requester repeated image he
  have hbit : bit repeated < 2 := by cases repeated <;> decide
  refine ⟨headerEpoch_buildHeader he, headerLine_buildHeader, headerRequester_buildHeader, ?_, ?_, ?_⟩
  · rw [headerFlags_buildHeader, BitVec.toNat_ofNat]
    omega
  · rw [headerLap_buildHeader, BitVec.toNat_ofNat]
  · rw [lineHeader_headerLineOf, recordPasses_iff]
    refine ⟨?_, headerLap_buildHeader, checkValue_buildHeader.trans headerCheck_buildHeader.symm,
      congrArg some (headerEpoch_buildHeader he).symm⟩
    rw [headerFlags_buildHeader]
    cases repeated
    · exact .inl rfl
    · exact .inr rfl

/-! ### Writes of the registers -/

section
variable {s : State}

/-- A byte after a write transaction is the byte written there, or the old one (R156). -/
theorem byteAt_writeBytes {w : Nat} (x : BitVec w) (bytes : List Byte) {k : Nat} (h : 8 * k + 8 ≤ w) :
    byteAt (writeBytes x bytes) k = (bytes[k]?).getD (byteAt x k) := by
  rw [writeBytes, byteAt_writeBytesFrom bytes 0 x k h, Nat.zero_add, Nat.sub_zero]
  by_cases hk : k < bytes.length
  · rw [if_pos ⟨Nat.zero_le k, hk⟩, List.getD_eq_getElem?_getD, List.getElem?_eq_getElem hk]
    rfl
  · rw [if_neg fun hc => hk hc.2, List.getElem?_eq_none (not_lt.mp hk)]
    rfl

theorem State.acknowledges_iff (hr : s.resetPhase = .running) (address : BusAddress) :
    s.acknowledges address = true ↔ address = .sevenBit s.i2c.address := by
  rw [State.acknowledges, hr]
  cases address with
  | sevenBit a => simp [I2c.owns]
  | tenBit a => simp [I2c.owns]

theorem exec_eventAck (hr : s.resetPhase = .running) (bytes : List Byte) :
    exec (.eventAck bytes) s = .next ((s.select 0x08 bytes.length).writeEventAck bytes) :=
  whileRunning_running hr fun s => (s.select 0x08 bytes.length).writeEventAck bytes

theorem exec_alertMaskWrite (hr : s.resetPhase = .running) (bytes : List Byte) :
    exec (.alertMaskWrite bytes) s = .next ((s.select 0x09 bytes.length).writeAlertMask bytes) :=
  whileRunning_running hr fun s => (s.select 0x09 bytes.length).writeAlertMask bytes

theorem exec_registerWrite (hr : s.resetPhase = .running) (target : WriteTarget) (bytes : List Byte) :
    exec (.registerWrite target bytes) s = .next (s.writeTransaction target bytes) :=
  whileRunning_running hr fun s => s.writeTransaction target bytes

theorem Events.acknowledge_head {q : Events} {e : Event} {rest : List Event} (h : q.queue = e :: rest)
    (bytes : List Byte) :
    q.acknowledge bytes = if ackNumber bytes = some e.seq then { q with queue := rest } else q := by
  rw [Events.acknowledge, h]

theorem Events.acknowledge_ignored {q : Events} {bytes : List Byte} (h : q.queue = [] ∨ bytes.length < 2) :
    q.acknowledge bytes = q := by
  rcases h with h | h
  · rw [Events.acknowledge, h]
  · have hnone : ackNumber bytes = none := by
      match bytes, h with
      | [], _ => rfl
      | [_], _ => rfl
    cases hq : q.queue with
    | nil => rw [Events.acknowledge, hq]
    | cons e rest => rw [Events.acknowledge_head hq, hnone, if_neg (by simp)]

theorem State.writeRegister_param {bytes : List Byte} :
    s.writeRegister 0x05 bytes =
      { s with mailbox := { s.mailbox with param := writeBytes s.mailbox.param bytes } } := by
  cases bytes <;> rfl

theorem State.writeRegister_ignored {index : Byte} {bytes : List Byte}
    (h : bytes = [] ∨ (hasOwnRow index = false ∧ index ≠ 0x05)) : s.writeRegister index bytes = s := by
  rcases h with rfl | ⟨hrow, hparam⟩
  · rw [State.writeRegister.eq_def]
  · have hne (v : Byte) (hv : v = 3 ∨ v = 4 ∨ v = 5 ∨ v = 8 ∨ v = 9) : index.toNat ≠ v.toNat := by
      intro hi
      rw [BitVec.eq_of_toNat_eq hi] at hrow hparam
      rcases hv with rfl | rfl | rfl | rfl | rfl <;> revert hrow hparam <;> decide
    rw [State.writeRegister.eq_def]
    split
    case h_1 => rfl
    case h_2 hi _ => exact absurd hi (hne 3 (by decide))
    case h_3 hi => exact absurd hi (hne 4 (by decide))
    case h_4 hi _ => exact absurd hi (hne 5 (by decide))
    case h_5 hi _ => exact absurd hi (hne 8 (by decide))
    case h_6 hi _ => exact absurd hi (hne 9 (by decide))
    case h_7 => rfl

/-- Settles O51: by the register written, each byte by its place. -/
theorem theRegisterWrites : Obligations.TheRegisterWrites := by
  rintro s u address index bytes hr rfl
  refine ⟨fun e rest b0 b1 more hq hb => ⟨fun hs => ?_, fun hs => ?_⟩, fun h => ?_,
    ⟨writeBytes s.events.alertMask bytes, ?_, fun k hk => ?_⟩,
    fun haddr => ⟨⟨writeBytes s.mailbox.param bytes, ?_, fun k hk => ?_⟩, fun h => ?_⟩, fun haddr => ?_⟩
  · rw [exec_eventAck hr, State.writeEventAck]
    have hack : ackNumber bytes = some e.seq := by rw [hb, ← hs]; rfl
    have hev : (s.select 0x08 bytes.length).events.queue = e :: rest := hq
    rw [Events.acknowledge_head hev, if_pos hack]
    rfl
  · rw [exec_eventAck hr, State.writeEventAck]
    have hack : ackNumber bytes ≠ some e.seq := by rw [hb]; simpa [ackNumber] using hs
    have hev : (s.select 0x08 bytes.length).events.queue = e :: rest := hq
    rw [Events.acknowledge_head hev, if_neg hack]
    rfl
  · have hev : (s.select 0x08 bytes.length).events.queue = [] ∨ bytes.length < 2 := h
    rw [exec_eventAck hr, State.writeEventAck, Events.acknowledge_ignored hev]
    rfl
  · exact exec_alertMaskWrite hr bytes
  · exact byteAt_writeBytes _ _ (by omega)
  · rw [exec_registerWrite hr, State.writeTransaction, if_pos ((State.acknowledges_iff hr address).mpr haddr),
      State.writeRegister_param]
    rfl
  · exact byteAt_writeBytes _ _ (by omega)
  · rw [exec_registerWrite hr, State.writeTransaction, if_pos ((State.acknowledges_iff hr address).mpr haddr),
      State.writeRegister_ignored h]
    rfl
  · rw [exec_registerWrite hr, State.writeTransaction,
      if_neg fun h => haddr ((State.acknowledges_iff hr address).mp h)]

end

end Sys2Proof.Machine
end


section
/-! PROOFS. The register window: the codes as the numbers of R183, R170 and R166, the bytes of each register,
and what a read transaction returns. -/
namespace Sys2Proof.Machine
set_option Elab.async false

/-! ### The codes -/

theorem Mode.code_eq_modeCode (m : Mode) : m.code = modeCode m := by cases m <;> rfl
theorem GateState.code_eq_gateCode (g : GateState) : g.code = gateCode g := by cases g <;> rfl
theorem Operation.code_eq_operationCode (o : Operation) : o.code = operationCode o := by cases o <;> rfl
theorem Phase.code_eq_phaseCode (p : Phase) : p.code = phaseCode p := by cases p <;> rfl
theorem RecoveryOutcome.code_eq_outcomeCode (o : RecoveryOutcome) : o.code = outcomeCode o := by
  cases o <;> rfl
theorem Trigger.code_eq_triggerCode (t : Trigger) : t.code = triggerCode t := by cases t <;> rfl
theorem RecoveryPhase.code_eq_recoveryPhaseCode (p : RecoveryPhase) : p.code = recoveryPhaseCode p := by
  cases p <;> rfl
theorem EventKind.code_eq_kindCode (k : EventKind) : k.code = kindCode k := by cases k <;> rfl
theorem CommandResult.code_eq_resultCode (r : CommandResult) : r.code = resultCode r := by cases r <;> rfl
theorem Reason.code_eq_reasonCode (r : Reason) : r.code = reasonCode r := by cases r <;> rfl

theorem modeCode_lt (m : Mode) : modeCode m < 256 := by cases m <;> decide
theorem gateCode_lt (g : GateState) : gateCode g < 256 := by cases g <;> decide
theorem operationCode_lt (o : Operation) : operationCode o < 256 := by cases o <;> decide
theorem phaseCode_lt (p : Phase) : phaseCode p < 256 := by cases p <;> decide
theorem sourceCode_lt (src : Source) : sourceCode src < 256 := by cases src <;> decide
theorem outcomeCode_lt (o : RecoveryOutcome) : outcomeCode o < 256 := by cases o <;> decide
theorem triggerCode_lt (t : Trigger) : triggerCode t < 256 := by cases t <;> decide
theorem recoveryPhaseCode_lt (p : RecoveryPhase) : recoveryPhaseCode p < 256 := by cases p <;> decide
theorem kindCode_lt (k : EventKind) : kindCode k < 256 := by cases k <;> decide
theorem resultCode_lt (r : CommandResult) : resultCode r < 256 := by cases r <;> decide
theorem reasonCode_lt (r : Reason) : reasonCode r < 256 := by cases r <;> decide

/-! ### Fields of one byte -/

theorem toNat_byte {v : Nat} (h : v < 256) : (BitVec.ofNat 8 v).toNat = v := by
  rw [BitVec.toNat_ofNat, Nat.mod_eq_of_lt h]

/-- The six flags of STATUS byte 2 (12.3). -/
theorem statusFlags_bits (a b c d e f : Bool) :
    let flags : Byte := BitVec.ofNat 8 (bit a + 2 * bit b + 4 * bit c + 8 * bit d + 16 * bit e + 32 * bit f)
    flags.getLsbD 0 = a ∧ flags.getLsbD 1 = b ∧ flags.getLsbD 2 = c ∧ flags.getLsbD 3 = d ∧
      flags.getLsbD 4 = e ∧ flags.getLsbD 5 = f ∧ flags.getLsbD 6 = false ∧ flags.getLsbD 7 = false := by
  revert a b c d e f
  decide

section
variable (s : State)

/-! ### The registers -/

theorem snapshot_ident : s.snapshot 0x00 = identRegister := rfl
theorem snapshot_status : s.snapshot 0x01 = s.statusRegister := rfl
theorem snapshot_journal : s.snapshot 0x02 = s.journal.register := rfl
theorem snapshot_timer : s.snapshot 0x03 = s.timer.word.setWidth 768 := rfl
theorem snapshot_cmd : s.snapshot 0x04 = s.mailbox.cmd.setWidth 768 := rfl
theorem snapshot_param : s.snapshot 0x05 = s.mailbox.param.setWidth 768 := rfl
theorem snapshot_result : s.snapshot 0x06 = s.mailbox.result := rfl
theorem snapshot_event : s.snapshot 0x07 = s.events.register := rfl
theorem snapshot_alertMask : s.snapshot 0x09 = s.events.alertMask.setWidth 768 := rfl
theorem snapshot_recovery : s.snapshot 0x0A = s.recovery.register := rfl

theorem snapshot_other {i : Byte} (h : i = 0x08 ∨ 0x0A < i.toNat) : s.snapshot i = 0 := by
  unfold State.snapshot
  rcases h with rfl | h
  · rfl
  · split
    case h_11 => rfl
    all_goals omega

/-- IDENT (R182). -/
theorem ident_bytes :
    byteAt identRegister 0 = 216 ∧ byteAt identRegister 1 = 0 ∧ byteAt identRegister 2 = Config.revision ∧
      byteAt identRegister 3 = 16 ∧ byteAt identRegister 4 = 4 ∧ byteAt identRegister 5 = 16 ∧
      byteAt identRegister 6 = 32 ∧ ∀ k, 7 ≤ k → byteAt identRegister k = 0 := by
  unfold identRegister
  refine ⟨?_, ?_, ?_, ?_, ?_, ?_, ?_, fun k hk => ?_⟩
  · simp (disch := omega) [byteAt_or, byteAt_field_other, byteAt_field]
    decide
  · simp (disch := omega) [byteAt_or, byteAt_field_other, byteAt_field]
    decide
  · simp (disch := omega) [byteAt_or, byteAt_field_other, byteAt_field, byteAt_byte]
  · simp (disch := omega) [byteAt_or, byteAt_field_other, byteAt_field, byteAt_byte]
  · simp (disch := omega) [byteAt_or, byteAt_field_other, byteAt_field, byteAt_byte]
  · simp (disch := omega) [byteAt_or, byteAt_field_other, byteAt_field, byteAt_byte]
  · simp (disch := omega) [byteAt_or, byteAt_field_other, byteAt_field, byteAt_byte]
  · simp (disch := omega) [byteAt_or, byteAt_field_other]

/-- The slot's three bytes are 3 to 5 (12.3). -/
theorem slotFields_other {k : Nat} (h : k < 3 ∨ 5 < k) (sl : Option Slot) : byteAt (slotFields sl) k = 0 := by
  cases sl with
  | none => exact byteAt_zero k
  | some sl => simp (disch := omega) [slotFields, byteAt_or, byteAt_field_other]

theorem slotFields_some (sl : Slot) :
    (byteAt (slotFields (some sl)) 3).toNat = operationCode sl.operation ∧
      (byteAt (slotFields (some sl)) 4).toNat = phaseCode sl.phase ∧
      (byteAt (slotFields (some sl)) 5).toNat = sourceCode sl.source := by
  simp (disch := omega) [slotFields, byteAt_or, byteAt_field_other, byteAt_field, byteAt_byte,
    Operation.code_eq_operationCode, Phase.code_eq_phaseCode, Source.code_eq_sourceCode]
  exact ⟨operationCode_lt _, phaseCode_lt _, sourceCode_lt _⟩

/-- STATUS (12.3). -/
theorem status_bytes :
    (byteAt s.statusRegister 0).toNat = modeCode s.epoch.mode ∧
      (byteAt s.statusRegister 1).toNat = gateCode s.gate.state ∧
      byteAt s.statusRegister 2 = BitVec.ofNat 8 s.statusFlags ∧
      (∀ k, 3 ≤ k → k ≤ 5 → byteAt s.statusRegister k = byteAt (slotFields s.ops.slot) k) ∧
      byteAt s.statusRegister 6 = BitVec.ofNat 8 s.events.queue.length ∧
      byteAt s.statusRegister 7 = BitVec.ofNat 8 s.epoch.table.length ∧
      (∀ k, k < 6 → byteAt s.statusRegister (8 + k) = byteAt (BitVec.ofNat 48 s.epoch.counter) k) ∧
      ∀ k, 14 ≤ k → byteAt s.statusRegister k = 0 := by
  unfold State.statusRegister
  refine ⟨?_, ?_, ?_, fun k h h' => ?_, ?_, ?_, fun k hk => ?_, fun k hk => ?_⟩
  · simp (disch := omega) [byteAt_or, byteAt_field_other, byteAt_field, byteAt_byte, slotFields_other,
      Mode.code_eq_modeCode, modeCode_lt]
  · simp (disch := omega) [byteAt_or, byteAt_field_other, byteAt_field, byteAt_byte, slotFields_other,
      GateState.code_eq_gateCode, gateCode_lt]
  · simp (disch := omega) [byteAt_or, byteAt_field_other, byteAt_field, byteAt_byte, slotFields_other]
  · simp (disch := omega) [byteAt_or, byteAt_field_other]
  · simp (disch := omega) [byteAt_or, byteAt_field_other, byteAt_field, byteAt_byte, slotFields_other]
  · simp (disch := omega) [byteAt_or, byteAt_field_other, byteAt_field, byteAt_byte, slotFields_other]
  · simp (disch := omega) [byteAt_or, byteAt_field_other, byteAt_field, slotFields_other]
  · simp (disch := omega) [byteAt_or, byteAt_field_other, slotFields_other]

/-- JOURNAL_STATE (R182). -/
theorem journal_bytes (j : Journal) :
    (∀ k, k < 5 → byteAt j.register k = byteAt (BitVec.ofNat 40 j.base) k) ∧
      (∀ k, k < 4 → byteAt j.register (8 + k) = byteAt (BitVec.ofNat 32 j.capacity) k) ∧
      byteAt j.register 12 = BitVec.ofNat 8 j.depth ∧
      (∀ k, k < 8 →
        byteAt j.register (16 + k) = byteAt (BitVec.ofNat 64 j.head) k ∧
        byteAt j.register (24 + k) = byteAt (BitVec.ofNat 64 j.written) k ∧
        byteAt j.register (32 + k) = byteAt (BitVec.ofNat 64 j.tail) k) ∧
      ∀ k, (5 ≤ k ∧ k < 8) ∨ (13 ≤ k ∧ k < 16) ∨ 40 ≤ k → byteAt j.register k = 0 := by
  unfold Journal.register
  refine ⟨fun k hk => ?_, fun k hk => ?_, ?_, fun k hk => ⟨?_, ?_, ?_⟩, fun k hk => ?_⟩
  · simp (disch := omega) [byteAt_or, byteAt_field_other, byteAt_field]
  · simp (disch := omega) [byteAt_or, byteAt_field_other, byteAt_field]
  · simp (disch := omega) [byteAt_or, byteAt_field_other, byteAt_field, byteAt_byte]
  · simp (disch := omega) [byteAt_or, byteAt_field_other, byteAt_field]
  · simp (disch := omega) [byteAt_or, byteAt_field_other, byteAt_field]
  · simp (disch := omega) [byteAt_or, byteAt_field_other, byteAt_field]
  · simp (disch := omega) [byteAt_or, byteAt_field_other]

/-- TIMER_CTL as its bytes (R182). -/
theorem EpochTimer.word_toNat (t : EpochTimer) :
    t.word.toNat = t.nextInterval % 2 ^ 24 + bit t.extend * 2 ^ 24 := by
  have : bit t.extend < 2 := by cases t.extend <;> decide
  rw [EpochTimer.word, BitVec.toNat_ofNat]
  omega

theorem timer_bytes (t : EpochTimer) :
    (∀ k, k < 3 → byteAt (t.word.setWidth 768) k = byteAt (BitVec.ofNat 24 t.nextInterval) k) ∧
      byteAt (t.word.setWidth 768) 3 = (if t.extend then 1 else 0) ∧
      ∀ k, 4 ≤ k → byteAt (t.word.setWidth 768) k = 0 := by
  simp only [byteAt_setWidth t.word (show 32 ≤ 768 by decide)]
  refine ⟨fun k hk => ?_, ?_, fun k hk => byteAt_of_ge _ (by omega)⟩
  · apply BitVec.eq_of_toNat_eq
    rw [byteAt_toNat, byteAt_toNat, EpochTimer.word_toNat, BitVec.toNat_ofNat]
    interval_cases k <;> omega
  · apply BitVec.eq_of_toNat_eq
    rw [byteAt_toNat, EpochTimer.word_toNat]
    cases t.extend <;> simp [bit]

/-- The head event in the places of 12.4. -/
theorem event_bytes (e : Event) :
    (∀ k, k < 2 →
      byteAt e.register k = byteAt (BitVec.ofNat 16 e.seq) k ∧
      byteAt e.register (18 + k) = byteAt (BitVec.ofNat 16 e.count) k) ∧
    (byteAt e.register 2).toNat = kindCode e.kind ∧ (byteAt e.register 3).toNat = e.requester.toNat ∧
    (∀ k, k < 6 → byteAt e.register (4 + k) = byteAt (BitVec.ofNat 48 e.epoch) k) ∧
    (∀ k, k < 8 → byteAt e.register (10 + k) = byteAt e.detail k) ∧
    ∀ k, 20 ≤ k → byteAt e.register k = 0 := by
  unfold Event.register
  refine ⟨fun k hk => ⟨?_, ?_⟩, ?_, ?_, fun k hk => ?_, fun k hk => ?_, fun k hk => ?_⟩
  · simp (disch := omega) [byteAt_or, byteAt_field_other, byteAt_field]
  · simp (disch := omega) [byteAt_or, byteAt_field_other, byteAt_field]
  · simp (disch := omega) [byteAt_or, byteAt_field_other, byteAt_field, byteAt_byte,
      EventKind.code_eq_kindCode, kindCode_lt]
  · have := e.requester.isLt
    simp (disch := omega) [byteAt_or, byteAt_field_other, byteAt_field, byteAt_byte]
    omega
  · simp (disch := omega) [byteAt_or, byteAt_field_other, byteAt_field]
  · simp (disch := omega) [byteAt_or, byteAt_field_other, byteAt_field]
  · simp (disch := omega) [byteAt_or, byteAt_field_other]

/-- LAST_RECOVERY (12.5). -/
theorem recovery_bytes (r : LastRecovery) :
    (byteAt r.register 0).toNat = outcomeCode r.outcome ∧
    (byteAt r.register 1).toNat = triggerCode r.trigger ∧
    (byteAt r.register 2).toNat = recoveryPhaseCode r.phase ∧
    byteAt r.register 3 = BitVec.ofNat 8 r.faults ∧
    (∀ k, k < 6 →
      byteAt r.register (4 + k) = byteAt (BitVec.ofNat 48 r.targetEpoch) k ∧
      byteAt r.register (10 + k) = byteAt (BitVec.ofNat 48 r.newEpoch) k) ∧
    (∀ k, k < 8 →
      byteAt r.register (16 + k) = byteAt (BitVec.ofNat 64 r.toRestore) k ∧
      byteAt r.register (24 + k) = byteAt (BitVec.ofNat 64 r.restored) k ∧
      byteAt r.register (32 + k) = byteAt (BitVec.ofNat 64 r.failingPosition) k) ∧
    ∀ k, 40 ≤ k → byteAt r.register k = 0 := by
  unfold LastRecovery.register
  refine ⟨?_, ?_, ?_, ?_, fun k hk => ⟨?_, ?_⟩, fun k hk => ⟨?_, ?_, ?_⟩, fun k hk => ?_⟩
  · simp (disch := omega) [byteAt_or, byteAt_field_other, byteAt_field, byteAt_byte,
      RecoveryOutcome.code_eq_outcomeCode, outcomeCode_lt]
  · simp (disch := omega) [byteAt_or, byteAt_field_other, byteAt_field, byteAt_byte,
      Trigger.code_eq_triggerCode, triggerCode_lt]
  · simp (disch := omega) [byteAt_or, byteAt_field_other, byteAt_field, byteAt_byte,
      RecoveryPhase.code_eq_recoveryPhaseCode, recoveryPhaseCode_lt]
  · simp (disch := omega) [byteAt_or, byteAt_field_other, byteAt_field, byteAt_byte]
  · simp (disch := omega) [byteAt_or, byteAt_field_other, byteAt_field]
  · simp (disch := omega) [byteAt_or, byteAt_field_other, byteAt_field]
  · simp (disch := omega) [byteAt_or, byteAt_field_other, byteAt_field]
  · simp (disch := omega) [byteAt_or, byteAt_field_other, byteAt_field]
  · simp (disch := omega) [byteAt_or, byteAt_field_other, byteAt_field]
  · simp (disch := omega) [byteAt_or, byteAt_field_other]

/-- RESULT bytes 0 to 3 (R161, R166). -/
theorem resultHeader_bytes (res : CommandResult) (why : Reason) (code : Byte) :
    byteAt (resultHeader res why code) 0 = BitVec.ofNat 8 (resultCode res) ∧
      byteAt (resultHeader res why code) 1 = BitVec.ofNat 8 (reasonCode why) ∧
      byteAt (resultHeader res why code) 2 = code ∧
      ∀ k, 3 ≤ k → byteAt (resultHeader res why code) k = 0 := by
  unfold resultHeader
  refine ⟨?_, ?_, ?_, fun k hk => ?_⟩
  · simp (disch := omega) [byteAt_or, byteAt_field_other, byteAt_field, byteAt_byte,
      CommandResult.code_eq_resultCode]
  · simp (disch := omega) [byteAt_or, byteAt_field_other, byteAt_field, byteAt_byte,
      Reason.code_eq_reasonCode]
  · simp (disch := omega) [byteAt_or, byteAt_field_other, byteAt_field, byteAt_byte]
  · simp (disch := omega) [byteAt_or, byteAt_field_other]

/-- Three bytes written into an empty detail (R161). -/
theorem setByte_three (a b c : Byte) :
    setByte (setByte (setByte (0 : BitVec 64) 0 a) 1 b) 2 c =
      BitVec.ofNat 64 (a.toNat + b.toNat * 2 ^ 8 + c.toNat * 2 ^ 16) := by
  have ha := a.isLt
  have hb := b.isLt
  have hc := c.isLt
  refine eq_of_byteAt (n := 8) fun k hk => BitVec.eq_of_toNat_eq ?_
  rw [byteAt_toNat (BitVec.ofNat _ _), BitVec.toNat_ofNat]
  interval_cases k
  · rw [byteAt_setByte_other _ _ _ _ (by decide), byteAt_setByte_other _ _ _ _ (by decide),
      byteAt_setByte_same _ _ _ (by decide)]
    omega
  · rw [byteAt_setByte_other _ _ _ _ (by decide), byteAt_setByte_same _ _ _ (by decide)]
    omega
  · rw [byteAt_setByte_same _ _ _ (by decide)]
    omega
  all_goals
    rw [byteAt_setByte_other _ _ _ _ (by decide), byteAt_setByte_other _ _ _ _ (by decide),
      byteAt_setByte_other _ _ _ _ (by decide), byteAt_zero]
    simp only [BitVec.ofNat_eq_ofNat, BitVec.toNat_ofNat]
    omega

/-- The COMMAND_DONE of a completion (R161, R166). -/
theorem doneReport_eq (n : Nat) (code : Byte) (res : CommandResult) (why : Reason) :
    doneReport n code res why =
      ⟨.commandDone, 0, n,
        BitVec.ofNat 64 (code.toNat + resultCode res * 2 ^ 8 + reasonCode why * 2 ^ 16), 1⟩ := by
  rw [doneReport, setByte_three, CommandResult.code_eq_resultCode, Reason.code_eq_reasonCode,
    toNat_byte (resultCode_lt res), toNat_byte (reasonCode_lt why)]
/-- Settles O52: by the register read, each byte by its place (`byteAt_field`). -/
theorem theWindowShowsTheRegisters : Obligations.TheWindowShowsTheRegisters := by
  intro s reg hr hreg
  obtain rfl : reg = fun i k => byteAt (s.snapshot i) k := funext fun i => funext fun k => hreg i k
  simp only [snapshot_ident, snapshot_status, snapshot_journal, snapshot_timer, snapshot_cmd, snapshot_param,
    snapshot_result, snapshot_event, snapshot_alertMask, snapshot_recovery]
  have hack := State.acknowledges_iff hr
  obtain ⟨i0, i1, i2, i3, i4, i5, i6, i7⟩ := ident_bytes
  obtain ⟨s0, s1, s2, s3, s6, s7, s8, s14⟩ := status_bytes s
  obtain ⟨f0, f1, f2, f3, f4, f5, f6, f7⟩ := statusFlags_bits s.gate.armed.isSome s.faultLevel
    s.ops.abortPending s.ops.owed.timer s.ops.owed.pressure s.ops.owed.journalFault
  obtain ⟨j0, j8, j12, j16, jrest⟩ := journal_bytes s.journal
  obtain ⟨t0, t3, t4⟩ := timer_bytes s.timer
  obtain ⟨r0, r1, r2, r3, r4, r16, r40⟩ := recovery_bytes s.recovery
  refine ⟨hack, ?_, ?_, fun n => ?_, i0, i1, i2, i3, i4, i5, i6, i7, s0, s1, s2 ▸ f0, s2 ▸ f1, s2 ▸ f2,
    s2 ▸ f3, s2 ▸ f4, s2 ▸ f5, s2 ▸ f6, s2 ▸ f7, fun hs k h h' => ?_, fun sl hs => ?_, fun hl => ?_,
    fun hl => ?_, s8, s14, j0, j8, j12, j16, jrest, t0, t3, t4, ?_, fun k hk => ?_, fun k => ?_,
    fun _ => trivial, fun res why code n => ?_, fun k => ?_, fun hq k => ?_, fun e rest hq => ?_, r0, r1, r2, r3,
    r4, r16, r40, fun i k h => ?_, ?_⟩
  · rw [Bool.eq_false_iff, ne_eq, hack]
    simp only [BusAddress.sevenBit.injEq, I2c.address]
    cases s.i2c.addr1 <;> cases s.i2c.addr0 <;> decide
  · intro address n h
    rw [State.readTransaction, if_neg (by simp [h])]
  · refine ⟨_, State.readTransaction_acknowledged ((hack _).mpr rfl) n, by simp, fun k hk => ?_⟩
    rw [List.getElem?_map, List.getElem?_range hk]
    rfl
  · rw [s3 k h h', hs]
    exact byteAt_zero k
  · rw [s3 3 (by decide) (by decide), s3 4 (by decide) (by decide), s3 5 (by decide) (by decide), hs]
    exact slotFields_some sl
  · rw [s6, toNat_byte (by omega)]
  · rw [s7, toNat_byte (by omega)]
  · rw [byteAt_setWidth _ (by decide), byteAt_byte]
  · rw [byteAt_setWidth _ (by decide), byteAt_of_ge _ (by omega)]
  · rw [byteAt_setWidth _ (by decide)]
  · obtain ⟨h0, h1, h2, h3⟩ := resultHeader_bytes res why code
    exact ⟨h0, h1, h2, h3, doneReport_eq n code res why⟩
  · rw [byteAt_setWidth _ (by decide)]
  · rw [Events.register, hq]
    exact byteAt_zero k
  · rw [Events.register, hq]
    exact event_bytes e
  · rw [snapshot_other s h]
    exact byteAt_zero k
  · simp only [State.alertLow, List.any_eq_true, EventKind.enabledBy, EventKind.code_eq_kindCode]

end

end Sys2Proof.Machine
end


section
/-! PROOFS. The two sources of a TIMER seal request: the expiry of the epoch timer, and a write of TIMER_CTL
that clears EXTEND. -/
namespace Sys2Proof.Machine
set_option Elab.async false

theorem scanData_eq_scanFields (sc : Scan) : scanData sc = scanFields sc := rfl

section
variable {s : State}

/-! ### The epoch timer -/

theorem exec_epochTimerExpiry {n : Nat} (hr : s.resetPhase = .running) (hc : s.timer.countdown = .running n) :
    exec .epochTimerExpiry s = .next s.timerExpires := by
  have h : exec .epochTimerExpiry s = .next s.epochTimerExpiry :=
    whileRunning_running hr fun s => s.epochTimerExpiry
  rw [h, State.epochTimerExpiry, hc]

theorem State.epochEmpty_eq {c : Checkpoint} (h : s.epoch.table.getLast? = some c) :
    s.epochEmpty = (c.start == s.journal.head) := by
  rw [State.epochEmpty, State.openEntry, h]
  rfl

/-- The countdown has stopped and the seal is asked for next (R98). -/
def State.timedOut (s : State) : State := { s with timer := { s.timer with countdown := .stopped } }

theorem State.timerExpires_asks {c : Checkpoint} (h : s.epoch.table.getLast? = some c)
    (hn : c.start ≠ s.journal.head) (he : s.timer.extend = false) :
    s.timerExpires = s.timedOut.requestSeal .timer := by
  rw [State.timerExpires, State.epochEmpty_eq h, if_neg (by simpa using hn), if_neg (by simp [he])]
  rfl

/-- Settles O21: by EXTEND, the records of the epoch, and what holds the slot (`State.requestSeal_spec`). -/
theorem theEpochTimerExpires : Obligations.TheEpochTimerExpires := by
  intro s n c hr hc hlast
  rw [exec_epochTimerExpiry hr hc]
  refine ⟨fun hs => ?_, fun hs he => ?_, fun hs he hm => ?_⟩
  · rw [State.timerExpires, State.epochEmpty_eq hlast, if_pos (by simpa using hs)]
  · rw [State.timerExpires, State.epochEmpty_eq hlast, if_neg (by simpa using hs), if_pos he]
  · rw [State.timerExpires_asks hlast hs he]
    have hm' : s.timedOut.epoch.mode = .journaling := hm
    refine ⟨fun hslot => ?_, fun sl hslot ho => ?_, fun sl hslot ho => ?_, fun sl sc hslot ho hsc => ?_⟩
    · rw [State.requestSeal_idle hm' hslot]
      rfl
    · have hjoin := State.requestSeal_busy hm' hslot .timer
      rw [ho] at hjoin
      rw [hjoin]
      simp only [State.joinSeal, State.timedOut, hslot]
      rfl
    · rw [State.requestSeal_busy hm' hslot]
      rcases ho with ho | ho <;> rw [ho] <;> rfl
    · have hspec := State.requestSeal_spec hm' (fun _ => Option.isSome_iff_exists.mpr ⟨sc, hsc⟩) .timer
      have hslot' : s.timedOut.ops.slot = some sl := hslot
      simp only [SealAsked, hslot', ho] at hspec
      obtain ⟨sc', hsc', hab, ht⟩ := hspec
      obtain rfl : sc = sc' := Option.some.inj (hsc.symm.trans hsc')
      refine ⟨_, rfl, ⟨?_, hab, ?_⟩, ht.trans ?_⟩
      · rw [ht]
        rfl
      · rw [ht]
        rfl
      · rw [show (s.timedOut.requestSeal .timer).mailbox = s.mailbox.completed true .preempted .none
          (scanFields sc) by rw [ht]; rfl]
        rfl

/-! ### TIMER_CTL -/

/-- The word after a write, byte by byte (R94, R156). -/
theorem byteAt_timerWord (t : EpochTimer) (bytes : List Byte) :
    byteAt (writeBytes t.word bytes) 0 = writtenByte bytes 0 (BitVec.ofNat 8 t.nextInterval) ∧
      byteAt (writeBytes t.word bytes) 1 = writtenByte bytes 1 (BitVec.ofNat 8 (t.nextInterval / 2 ^ 8)) ∧
      byteAt (writeBytes t.word bytes) 2 = writtenByte bytes 2 (BitVec.ofNat 8 (t.nextInterval / 2 ^ 16)) ∧
      byteAt (writeBytes t.word bytes) 3 = writtenByte bytes 3 (if t.extend then 1 else 0) := by
  have hb : bit t.extend < 2 := by cases t.extend <;> decide
  have old (k : Nat) (b : Byte) (h : t.word.toNat / 2 ^ (8 * k) % 256 = b.toNat) : byteAt t.word k = b :=
    BitVec.eq_of_toNat_eq (by rw [byteAt_toNat, h])
  have hword := EpochTimer.word_toNat t
  refine ⟨?_, ?_, ?_, ?_⟩
  · rw [byteAt_writeBytes _ _ (by decide), old 0 (BitVec.ofNat 8 t.nextInterval), writtenByte]
    rw [hword, BitVec.toNat_ofNat]
    omega
  · rw [byteAt_writeBytes _ _ (by decide), old 1 (BitVec.ofNat 8 (t.nextInterval / 2 ^ 8)), writtenByte]
    rw [hword, BitVec.toNat_ofNat]
    omega
  · rw [byteAt_writeBytes _ _ (by decide), old 2 (BitVec.ofNat 8 (t.nextInterval / 2 ^ 16)), writtenByte]
    rw [hword, BitVec.toNat_ofNat]
    omega
  · rw [byteAt_writeBytes _ _ (by decide), old 3 (if t.extend then 1 else 0), writtenByte]
    rw [hword]
    cases t.extend <;> simp [bit]

/-- NEXT_INTERVAL is three bytes of the word, and EXTEND is bit 0 of the fourth (R182). -/
theorem timerWord_interval (w : BitVec 32) :
    (w.extractLsb' 0 24).toNat =
      (byteAt w 0).toNat + (byteAt w 1).toNat * 2 ^ 8 + (byteAt w 2).toNat * 2 ^ 16 := by
  rw [BitVec.extractLsb'_toNat, byteAt_toNat, byteAt_toNat, byteAt_toNat, Nat.shiftRight_zero]
  omega

theorem timerWord_extend (w : BitVec 32) : w.getLsbD 24 = (byteAt w 3).getLsbD 0 := by
  simp [byteAt]

/-- The state after the bytes of TIMER_CTL are written, before a seal is asked for (R94). -/
def State.timerWritten (s : State) (bytes : List Byte) : State :=
  { s with
    i2c := { s.i2c with index := 0x03, pointer := bytes.length }
    timer :=
      { s.timer with
        nextInterval := ((writeBytes s.timer.word bytes).extractLsb' 0 24).toNat
        extend := (writeBytes s.timer.word bytes).getLsbD 24 } }

theorem exec_timerCtlWrite (hr : s.resetPhase = .running) (bytes : List Byte) :
    exec (.timerCtlWrite bytes) s = .next
      (if (s.timer.extend && !(s.timerWritten bytes).timer.extend && s.ops.owed.timer) = true then
        (s.timerWritten bytes).requestSeal .timer
      else s.timerWritten bytes) :=
  whileRunning_running hr fun s => (s.select 0x03 bytes.length).writeTimerCtl bytes

/-- Settles O50: by the bytes written, and then by what holds the slot (`State.requestSeal_spec`). -/
theorem aTimerCtlWrite : Obligations.ATimerCtlWrite := by
  rintro s u bytes extend hr rfl rfl
  obtain ⟨h0, h1, h2, h3⟩ := byteAt_timerWord s.timer bytes
  have hextend : (writtenByte bytes 3 (if s.timer.extend then 1 else 0)).getLsbD 0 =
      (s.timerWritten bytes).timer.extend := by
    rw [← h3, ← timerWord_extend]
    rfl
  have hwritten : s.timerWritten bytes = { s with
      i2c := { s.i2c with index := 0x03, pointer := bytes.length }
      timer :=
        { s.timer with
          nextInterval :=
            (writtenByte bytes 0 (BitVec.ofNat 8 s.timer.nextInterval)).toNat +
              (writtenByte bytes 1 (BitVec.ofNat 8 (s.timer.nextInterval / 2 ^ 8))).toNat * 2 ^ 8 +
              (writtenByte bytes 2 (BitVec.ofNat 8 (s.timer.nextInterval / 2 ^ 16))).toNat * 2 ^ 16
          extend := (writtenByte bytes 3 (if s.timer.extend then 1 else 0)).getLsbD 0 } } := by
    rw [State.timerWritten, timerWord_interval, timerWord_extend, h0, h1, h2, h3]
  refine ⟨fun hno => ?_, fun hx hclear howed hm hv => ⟨(s.timerWritten bytes).requestSeal .timer, ?_, ?_⟩⟩
  · rw [hextend] at hno
    rw [exec_timerCtlWrite hr, if_neg, hwritten]
    rcases hno with h | h | h <;> simp [h]
  · rw [hextend] at hclear
    rw [exec_timerCtlWrite hr, if_pos (by simp [hx, hclear, howed])]
  · have hspec := State.requestSeal_spec (s := s.timerWritten bytes) hm hv .timer
    rw [hwritten] at hspec
    rw [hwritten]
    exact hspec

end

end Sys2Proof.Machine
end


section
/-! PROOFS. The fence and the FAULT line: what the fence leaves when it closes and when it opens, the FAULT edges
of every mode, RELEASE, and the entry into BROKEN. -/
namespace Sys2Proof.Machine
set_option Elab.async false

section
variable {s : State} {sl : Slot}

/-! ### The fence closes -/

theorem fenceRemoves_eq (e : WaqEntry) :
    fenceRemoves e = (e.state != .capturing && e.state != .issued) := by
  unfold fenceRemoves
  cases e.state <;> rfl

theorem not_fenceRemoves_eq (e : WaqEntry) :
    (!fenceRemoves e) = (e.state == .capturing || e.state == .issued) := by
  unfold fenceRemoves
  cases e.state <;> rfl

/-- What the fence leaves as it closes (R49, R50, R51). -/
theorem State.enterFence_closes (s : State) : fenceCloses s s.enterFence := by
  unfold fenceCloses
  split
  case isTrue h =>
    rw [State.enterFence_of_fence h]
    exact ⟨rfl, rfl, rfl⟩
  case isFalse h =>
    rw [State.enterFence_of_open h, State.fenceRemovals_eq]
    refine ⟨?_, ?_, rfl⟩
    · simp only [not_fenceRemoves_eq]
    · simp only [funext fenceRemoves_eq]

/-- Beside what it removes, the fence changes the gate and queues its reports (R49, R51). -/
theorem State.enterFence_eq (s : State) :
    s.enterFence = { s with
      gate := { s.gate with state := .fence, armed := if s.gate.state = .fence then s.gate.armed else none }
      waq := s.enterFence.waq
      answers := s.enterFence.answers
      mport := s.enterFence.mport
      events := s.events.offers s.epoch.counter (fenceReports s) } := by
  by_cases h : s.gate.state = .fence
  · rw [State.enterFence_of_fence h, if_pos h, fenceReports, if_pos h, ← h]
    rfl
  · rw [State.enterFence_of_open h, State.fenceRemovals_eq, if_neg h, fenceReports, if_neg h]
    simp only [funext fenceRemoves_eq, refusalKind_eq]

/-- With no release armed before it, the fence has none after it (R51). -/
theorem State.enterFence_disarmed (h : s.gate.armed = none) :
    s.enterFence = { s with
      gate := { s.gate with state := .fence, armed := none }
      waq := s.enterFence.waq
      answers := s.enterFence.answers
      mport := s.enterFence.mport
      events := s.events.offers s.epoch.counter (fenceReports s) } := by
  refine s.enterFence_eq.trans ?_
  rw [h, ite_self]

/-- A fence that closes leaves no write waiting for a capture that was not waiting before (R49, R71). -/
theorem fenceCloses_capturesGranted {t : State} (h : fenceCloses s t) (hc : t.captures = s.captures)
    (hg : s.capturesGranted) : t.capturesGranted := by
  unfold State.capturesGranted
  rw [hc]
  refine hg.imp_right fun hg e he => ?_
  unfold fenceCloses at h
  split at h
  case isTrue =>
    rw [h.1] at he
    exact hg e he
  case isFalse =>
    rw [h.1] at he
    obtain ⟨x, hx, rfl⟩ := List.mem_map.mp he
    have := hg x (List.mem_filter.mp hx).1
    split
    · exact this
    · exact this

/-! ### The FAULT line -/

theorem exec_faultEdge (hr : s.resetPhase = .running) : exec .faultEdge s = .next s.faultRises :=
  whileRunning_running hr fun s => s.faultRises

/-- The state in which a FAULT edge is dispatched (R51, R177). -/
def State.faulted (s : State) : State :=
  { s with faultLevel := true, gate := { s.gate with armed := none } }

theorem State.faultRises_dispatches (hf : s.faultLevel = false) (he : s.policy.faultEnable = true) :
    s.faultRises = s.faulted.dispatchFault := by
  rw [State.faultRises, if_neg (by simp [hf])]
  simp only [he, if_true]
  rfl

/-- Settles O33: by the level, the policy and the mode. -/
theorem aFaultEdgeOutsideJournaling : Obligations.AFaultEdgeOutsideJournaling := by
  intro s hr
  rw [exec_faultEdge hr]
  refine ⟨fun hf => ?_, fun hf he => ?_, fun hf he hm => ?_, fun hf he hm => ?_⟩
  · rw [State.faultRises, if_pos hf]
  · rw [State.faultRises, if_neg (by simp [hf])]
    simp only [he, Bool.false_eq_true, if_false]
  · have hm' : s.faulted.epoch.mode = .broken := hm
    rw [State.faultRises_dispatches hf he, State.dispatchFault, hm']
    rfl
  · have hm' : s.faulted.epoch.mode = .passthrough := hm
    refine ⟨_, rfl, ?_, ?_⟩
    all_goals rw [State.faultRises_dispatches hf he, State.dispatchFault, hm']
    · exact State.enterFence_closes (s.faulted.reportFault .fencedUnprotected 0 1)
    · exact congrArg State.startFenceTimer
        (State.enterFence_disarmed (s := s.faulted.reportFault .fencedUnprotected 0 1) rfl)

/-- The action of FAULT_SEEN with no target stands in its detail alone (R178). -/
theorem State.reportFault_eq (s : State) (action : FaultAction) (n : Nat) :
    s.reportFault action 0 n = { s with
      events := s.events.offer s.epoch.counter
        ⟨.faultSeen, 0, s.epoch.counter, BitVec.ofNat 64 action.code, n⟩ } := by
  unfold State.reportFault State.report
  cases action <;> rfl

theorem OpCtl.countsFault_eq_false {o : OpCtl}
    (h : ∀ sl, o.slot = some sl → sl.operation = .rollback → sl.source ≠ .fault ∧ sl.phase ≠ .restore) :
    o.countsFault = false := by
  unfold OpCtl.countsFault
  split
  case h_1 sl hs =>
    by_cases ho : sl.operation = .rollback
    · obtain ⟨h1, h2⟩ := h sl hs ho
      simp [h1, h2]
    · simp [ho]
  case h_2 => rfl

/-- Settles O34: with no target or no epoch left the dispatch closes the fence and nothing more. -/
theorem aFaultWithoutTargetFencesThePart : Obligations.AFaultWithoutTargetFencesThePart := by
  intro s hr hf he hm hslot hnone
  have hm' : s.faulted.epoch.mode = .journaling := hm
  have hcounts : s.faulted.ops.countsFault = false := by
    refine OpCtl.countsFault_eq_false fun sl hs ho => ?_
    have hs' : s.ops.slot = some sl := hs
    simp [OpCtl.holds, hs', ho] at hslot
  have htarget : faultTarget s.epoch.counter s.policy.faultDepth s.epoch.table = none := by
    unfold faultTarget
    split
    case isTrue => rfl
    case isFalse hl =>
      refine List.find?_eq_none.mpr fun c hc => ?_
      have hc' : c ∈ s.epoch.table := List.mem_of_mem_drop hc
      simpa using (hnone.resolve_left hl) c hc'
  have hrises : s.faultRises = (s.faulted.reportFault .fencedNoCheckpoint 0 1).fenceNoCheckpoint := by
    rw [State.faultRises_dispatches hf he, State.dispatchFault, hm']
    simp only [State.faultJournaling, hcounts, Bool.false_eq_true, if_false]
    rw [show faultTarget s.faulted.epoch.counter s.faulted.policy.faultDepth s.faulted.epoch.table = none
      from htarget]
  rw [exec_faultEdge hr, hrises]
  refine ⟨_, rfl, State.enterFence_closes (s.faulted.reportFault .fencedNoCheckpoint 0 1), ?_⟩
  exact congrArg (fun x : State => State.startFenceTimer { x with
      recovery := { LastRecovery.cleared with outcome := .failedNoCheckpoint, trigger := .fault } })
    (State.enterFence_disarmed (s := s.faulted.reportFault .fencedNoCheckpoint 0 1) rfl)

/-- A FAULT edge during a recovery has been counted and reported, and the rollback is fault-owned (R89, R132). -/
def State.recounted (s : State) (sl : Slot) : State :=
  { s.faulted.countFault.reportFault .duringRecovery 0 (min (s.recovery.faults + 1) 255) with
    ops := { s.ops with slot := some { sl with source := .fault } } }

/-- Settles O36: the rollback counts the fault, and passes to the fault's ownership under FENCE. -/
theorem aFaultDuringRecoveryIsCounted : Obligations.AFaultDuringRecoveryIsCounted := by
  intro s sl hr hf he hm hs ho hcase
  have hm' : s.faulted.epoch.mode = .journaling := hm
  have hs' : s.faulted.ops.slot = some sl := hs
  have hcounts : s.faulted.ops.countsFault = true := by
    simp only [OpCtl.countsFault, hs', ho]
    rcases hcase with h | h <;> simp [h]
  have hrises : s.faultRises =
      (s.faulted.countFault.reportFault .duringRecovery 0 (min (s.recovery.faults + 1) 255)).upgrade := by
    rw [State.faultRises_dispatches hf he, State.dispatchFault, hm']
    simp only [State.faultJournaling, hcounts, if_true]
    rfl
  rw [exec_faultEdge hr, hrises]
  have hupgraded : (s.faulted.countFault.reportFault .duringRecovery 0 (min (s.recovery.faults + 1) 255)).upgrade =
      (s.recounted sl).enterFence := by
    unfold State.upgrade
    rw [show (s.faulted.countFault.reportFault .duringRecovery 0 (min (s.recovery.faults + 1) 255)).ops.slot =
      some sl from hs]
    rfl
  rw [hupgraded]
  exact ⟨_, rfl, (s.recounted sl).enterFence_closes, State.enterFence_disarmed (s := s.recounted sl) rfl⟩

/-! ### A fault rollback -/

theorem faultTarget_eq {counter depth : Nat} {older newer : List Checkpoint} {c : Checkpoint}
    (hl : counter ≠ 2 ^ 48 - 1) (hc : c.condition = .usable)
    (hd : (older ++ c :: newer).length - 1 - depth ≤ older.length)
    (hn : ∀ x ∈ older.drop ((older ++ c :: newer).length - 1 - depth), x.condition ≠ .usable) :
    faultTarget counter depth (older ++ c :: newer) = some c := by
  have hl' : counter ≠ Config.epochLimit := hl
  rw [faultTarget, if_neg hl', List.drop_append_of_le_length hd, List.find?_append, List.find?_eq_none.mpr]
  · simp [hc]
  · simpa using hn

/-- A FAULT edge has been reported as `seen`, and what held the slot has been displaced: what that left of the
slot, the owed flags, the scan, the M port, the mailbox and the events (R86, R88). -/
def State.displacedTo (s : State) (ops : OpCtl) (scan : Option Scan) (m : MPort) (mailbox : Mailbox)
    (reports : List Report) : State :=
  { s with
    faultLevel := true
    gate := { s.gate with armed := none }
    ops := ops
    scan := scan
    mport := m
    mailbox := mailbox
    events := s.events.offers s.epoch.counter reports }

/-- The rollback that starts in the place of what was displaced (R116). -/
theorem State.displacedTo_starts (s : State) (ops : OpCtl) (scan : Option Scan) (m : MPort) (mailbox : Mailbox)
    (reports : List Report) (c : Checkpoint) :
    fenceCloses { s with mport := m } ((s.displacedTo ops scan m mailbox reports).startFaultRollback c) ∧
      (s.displacedTo ops scan m mailbox reports).startFaultRollback c = { s with
        faultLevel := true
        gate := ⟨.fence, none, none⟩
        ops := { ops with slot := some ⟨.rollback, .fault, .drain, ⟨false, false, false⟩, false, false⟩ }
        engine := some ⟨c.epoch, c.start, none, ⟨.idle, .idle⟩, 0⟩
        timer := { s.timer with countdown := s.timer.countdown.pause }
        recovery := ⟨.inProgress, .fault, .drain, c.epoch, 0, 0, 0, 0, 0⟩
        scan := scan
        mailbox := mailbox
        waq := ((s.displacedTo ops scan m mailbox reports).startFaultRollback c).waq
        answers := ((s.displacedTo ops scan m mailbox reports).startFaultRollback c).answers
        mport := ((s.displacedTo ops scan m mailbox reports).startFaultRollback c).mport
        events := s.events.offers s.epoch.counter (reports ++ fenceReports s) } := by
  have hclosed := State.enterFence_disarmed
    (s := (s.displacedTo ops scan m mailbox reports).enterDrain .fault .fault c false false) rfl
  refine ⟨State.enterFence_closes
    ((s.displacedTo ops scan m mailbox reports).enterDrain .fault .fault c false false), ?_⟩
  rw [Events.offers_append]
  exact congrArg (fun x : State => { x with gate := { x.gate with timer := none } }) hclosed

/-- What held the slot is displaced (R86, R88, R141). -/
theorem State.displace_gather (hs : s.ops.slot = some sl) (ho : sl.operation = .seal ∨ sl.operation = .stop) :
    s.displace = { s with
      ops :=
        { slot := none
          owed := (s.ops.owed.union sl.joined).add sl.source
          abortPending := if sl.command then false else s.ops.abortPending }
      mailbox := s.mailbox.completed sl.command .preempted .none (field 4 6 s.epoch.counter)
      events := s.events.offers s.epoch.counter (completionOf s sl s.epoch.counter .preempted .none) } := by
  have h : s.displace = s.preemptGather sl := by
    unfold State.displace
    rw [hs]
    rcases ho with ho | ho <;> simp only [ho]
  rw [h, State.preemptGather]
  simp only [State.completeIf_eq]
  rfl

theorem State.displace_rollback (hs : s.ops.slot = some sl) (ho : sl.operation = .rollback) :
    s.displace = { s with
      ops := { s.ops with abortPending := if sl.command then false else s.ops.abortPending }
      mailbox := s.mailbox.completed sl.command .preempted .none (recoveryFields s.recovery)
      events := s.events.offers s.epoch.counter (completionOf s sl s.epoch.counter .preempted .none) } := by
  unfold State.displace
  rw [hs]
  simp only [ho, State.completeIf_eq]
  rfl

theorem State.displace_verify (hs : s.ops.slot = some sl) (ho : sl.operation = .verify) {sc : Scan}
    (hsc : s.scan = some sc) :
    ∃ m, ScanAbandoned s.mport m ∧ s.displace = { s with
      scan := none
      mport := m
      ops := { s.ops with abortPending := false }
      mailbox := s.mailbox.completed true .preempted .none (scanFields sc)
      events := s.events.offer s.epoch.counter
        (doneReport s.epoch.counter s.mailbox.cmd .preempted .none) } := by
  obtain ⟨m, hm, hab⟩ := s.abandon_verify
  refine ⟨m, hm, ?_⟩
  unfold State.displace
  rw [hs]
  simp only [ho, State.stopScan, hsc, hab]
  rfl

theorem OpCtl.hasCommand_eq {o : OpCtl} (h : o.slot = some sl) : o.hasCommand = sl.command := by
  rw [OpCtl.hasCommand, h]
  rfl

/-- Settles O35: what holds the slot is displaced, and the fault rollback starts on the slot left idle. -/
theorem aFaultStartsARollback : Obligations.AFaultStartsARollback := by
  rintro s older newer c seen hr hf he hm hl ht hc hdepth hbefore rfl
  have hm' : s.faulted.epoch.mode = .journaling := hm
  have htarget : faultTarget s.epoch.counter s.policy.faultDepth s.epoch.table = some c := by
    rw [ht] at hdepth hbefore ⊢
    exact faultTarget_eq hl hc hdepth hbefore
  have hrises (hcounts : s.ops.countsFault = false) :
      s.faultRises = (s.faulted.reportFault .rollbackStarted c.epoch 1).displace.startFaultRollback c := by
    have hcounts' : s.faulted.ops.countsFault = false := hcounts
    rw [State.faultRises_dispatches hf he, State.dispatchFault, hm']
    simp only [State.faultJournaling, hcounts', Bool.false_eq_true, if_false]
    rw [show faultTarget s.faulted.epoch.counter s.faulted.policy.faultDepth s.faulted.epoch.table = some c
      from htarget]
  rw [exec_faultEdge hr]
  refine ⟨fun hslot => ?_, fun sl sc hs ho hsc => ?_⟩
  · rcases hslot with hs | ⟨sl, hs, hcase⟩
    · have hs' : (s.faulted.reportFault .rollbackStarted c.epoch 1).ops.slot = none := hs
      rw [hrises (OpCtl.countsFault_eq_false fun sl h => nomatch hs.symm.trans h), State.displace, hs']
      obtain ⟨hclose, heq⟩ := s.displacedTo_starts s.ops s.scan s.mport s.mailbox
        [⟨.faultSeen, 0, s.epoch.counter, 2#64 ||| (BitVec.ofNat 48 c.epoch).setWidth 64 <<< 16, 1⟩] c
      refine ⟨_, rfl, hclose, heq.trans ?_⟩
      simp only [hs, OpCtl.hasCommand, Option.any_none]
      rfl
    · have hs' : (s.faulted.reportFault .rollbackStarted c.epoch 1).ops.slot = some sl := hs
      have hcounts : s.ops.countsFault = false := by
        refine OpCtl.countsFault_eq_false fun x h ho => ?_
        obtain rfl : x = sl := Option.some.inj (h.symm.trans hs)
        rcases hcase with h' | h' | ⟨-, hsrc, hph⟩
        · exact nomatch h'.symm.trans ho
        · exact nomatch h'.symm.trans ho
        · rw [hsrc, hph]
          decide
      rw [hrises hcounts]
      by_cases hroll : sl.operation = .rollback
      · rw [State.displace_rollback hs' hroll]
        obtain ⟨hclose, heq⟩ := s.displacedTo_starts
          { s.ops with abortPending := if sl.command then false else s.ops.abortPending } s.scan s.mport
          (s.mailbox.completed sl.command .preempted .none (recoveryFields s.recovery))
          (⟨.faultSeen, 0, s.epoch.counter, 2#64 ||| (BitVec.ofNat 48 c.epoch).setWidth 64 <<< 16, 1⟩ ::
            completionOf s sl s.epoch.counter .preempted .none) c
        refine ⟨_, rfl, hclose, heq.trans ?_⟩
        simp only [hs, OpCtl.hasCommand_eq hs, if_pos hroll, List.cons_append]
        rfl
      · rw [State.displace_gather hs' (by tauto)]
        obtain ⟨hclose, heq⟩ := s.displacedTo_starts
          { slot := none
            owed := (s.ops.owed.union sl.joined).add sl.source
            abortPending := if sl.command then false else s.ops.abortPending } s.scan s.mport
          (s.mailbox.completed sl.command .preempted .none (field 4 6 s.epoch.counter))
          (⟨.faultSeen, 0, s.epoch.counter, 2#64 ||| (BitVec.ofNat 48 c.epoch).setWidth 64 <<< 16, 1⟩ ::
            completionOf s sl s.epoch.counter .preempted .none) c
        refine ⟨_, rfl, hclose, heq.trans ?_⟩
        simp only [hs, OpCtl.hasCommand_eq hs, if_neg hroll, List.cons_append]
        rfl
  · have hs' : (s.faulted.reportFault .rollbackStarted c.epoch 1).ops.slot = some sl := hs
    have hsc' : (s.faulted.reportFault .rollbackStarted c.epoch 1).scan = some sc := hsc
    obtain ⟨m, hm, hd⟩ := State.displace_verify hs' ho hsc'
    have hcounts : s.ops.countsFault = false := by
      refine OpCtl.countsFault_eq_false fun x h hx => ?_
      obtain rfl : x = sl := Option.some.inj (h.symm.trans hs)
      exact nomatch ho.symm.trans hx
    rw [hrises hcounts, hd]
    obtain ⟨hclose, heq⟩ := s.displacedTo_starts { s.ops with abortPending := false } none m
      (s.mailbox.completed true .preempted .none (scanFields sc))
      [⟨.faultSeen, 0, s.epoch.counter, 2#64 ||| (BitVec.ofNat 48 c.epoch).setWidth 64 <<< 16, 1⟩,
        doneReport s.epoch.counter s.mailbox.cmd .preempted .none] c
    exact ⟨_, m, rfl, hm, hclose, heq⟩

end

end Sys2Proof.Machine
end


section
/-! PROOFS. The fence opens: at the fall of FAULT, at the expiry of the fence release timer and by RELEASE. -/
namespace Sys2Proof.Machine
set_option Elab.async false

section
variable {s : State} {sl : Slot} {cause : ReleaseCause}

/-- A fence that opens for a release (R50, R52). -/
theorem State.openFence_eq (h : s.gate.armed = some cause) : s.openFence = s.openedBy cause := by
  have hslot : (if s.ops.holdsGather then s.ops.slot.map fun sl => { sl with moved := true } else s.ops.slot) =
      s.ops.slot.map fun sl =>
        if sl.operation = .seal ∨ sl.operation = .stop then { sl with moved := true } else sl := by
    unfold OpCtl.holdsGather
    cases s.ops.slot with
    | none => rfl
    | some sl => cases ho : sl.operation <;> simp [ho]
  have hreport : releasedReport s.epoch.counter (some cause) = gateReleased s.epoch.counter (some cause) := by
    cases cause <;> rfl
  unfold State.openFence State.openedBy
  rw [hslot, h, hreport, OpCtl.holdsGather_eq]
  rfl

/-- The fence opens when a release and a low FAULT line meet (R52). -/
theorem State.examineRelease_opens (hg : s.gate.state = .fence) (ha : s.gate.armed = some cause)
    (hf : s.faultLevel = false) (hr : s.ops.holds .rollback = false) (hm : s.epoch.mode ≠ .broken) :
    s.examineRelease = s.openedBy cause := by
  have hdue : s.releaseDue = true := by
    rw [State.releaseDue_iff, OpCtl.holdsRollback_eq]
    exact ⟨hg, by rw [ha]; rfl, hf, hr, hm⟩
  rw [State.examineRelease, if_pos hdue, State.openFence_eq ha]

/-- It stays while one of the conditions is missing (R52). -/
theorem State.examineRelease_stays (h : s.gate.state ≠ .fence ∨ s.gate.armed = none ∨ s.faultLevel = true ∨
    s.ops.holds .rollback = true ∨ s.epoch.mode = .broken) : s.examineRelease = s := by
  have hdue : ¬s.releaseDue = true := by
    rw [State.releaseDue_iff, OpCtl.holdsRollback_eq]
    rintro ⟨hg, ha, hf, hr, hm⟩
    rcases h with h | h | h | h | h
    · exact h hg
    · rw [h] at ha
      exact nomatch ha
    · exact nomatch h.symm.trans hf
    · exact nomatch h.symm.trans hr
    · exact hm h
  rw [State.examineRelease, if_neg hdue]

theorem exec_faultLevelFall (hr : s.resetPhase = .running) : exec .faultLevelFall s = .next s.faultFalls :=
  whileRunning_running hr fun s => s.faultFalls

theorem exec_fenceReleaseTimerExpiry (hr : s.resetPhase = .running) :
    exec .fenceReleaseTimerExpiry s = .next s.fenceTimerExpires :=
  whileRunning_running hr fun s => s.fenceTimerExpires

/-- The gate after the fence release timer has expired (R53). -/
def Gate.expired (g : Gate) : Gate :=
  { g with timer := none, armed := match g.armed with | none => some .timer | some c => some c }

theorem State.armRelease_free (h : s.gate.armed = none) :
    s.armRelease cause = { s with gate := { s.gate with armed := some cause } } := by
  rw [State.armRelease, h]

theorem State.armRelease_armed {c : ReleaseCause} (h : s.gate.armed = some c) : s.armRelease cause = s := by
  rw [State.armRelease, h]

theorem State.fenceTimerExpires_eq {n : Nat} (h : s.gate.timer = some n) :
    s.fenceTimerExpires = State.examineRelease { s with gate := s.gate.expired } := by
  unfold State.fenceTimerExpires
  rw [h]
  cases ha : s.gate.armed with
  | none =>
    have hexp : s.gate.expired = { s.gate with timer := none, armed := some .timer } := by
      rw [Gate.expired, ha]
    rw [hexp]
    exact congrArg State.examineRelease (State.armRelease_free (s := { s with gate := { s.gate with timer := none } }) ha)
  | some c =>
    have hexp : s.gate.expired = { s.gate with timer := none } := by
      have harmed : (match s.gate.armed with | none => some .timer | some c => some c) = s.gate.armed := by
        rw [ha]
      rw [Gate.expired, harmed]
    rw [hexp]
    exact congrArg State.examineRelease (State.armRelease_armed (s := { s with gate := { s.gate with timer := none } }) ha)

/-- Settles O37: by the conditions of R52, one missing or none (`State.examineRelease_opens`,
`State.examineRelease_stays`). -/
theorem theFenceOpens : Obligations.TheFenceOpens := by
  intro s hr
  rw [exec_faultLevelFall hr, exec_fenceReleaseTimerExpiry hr]
  refine ⟨fun hf => ?_, fun cause hf hg ha hroll hm => ?_, fun hf h => ?_, fun ht => ?_,
    fun n ht hg => ⟨fun ha hf hroll hm => ?_, fun h => ?_⟩⟩
  · rw [State.faultFalls, if_neg (by simp [hf])]
  · rw [State.faultFalls, if_pos hf, State.examineRelease_opens (s := { s with faultLevel := false }) hg ha rfl
      hroll hm]
    rfl
  · rw [State.faultFalls, if_pos hf, State.examineRelease_stays]
    rcases h with h | h | h | h
    · exact .inl h
    · exact .inr (.inl h)
    · exact .inr (.inr (.inr (.inl h)))
    · exact .inr (.inr (.inr (.inr h)))
  · rw [State.fenceTimerExpires, ht]
  · have hexp : s.gate.expired.armed = some .timer := by rw [Gate.expired, ha]
    rw [State.fenceTimerExpires_eq ht,
      State.examineRelease_opens (s := { s with gate := s.gate.expired }) hg hexp hf hroll hm]
    rfl
  · rw [State.fenceTimerExpires_eq ht, State.examineRelease_stays]
    · rfl
    · rcases h with h | h | h
      · exact .inr (.inr (.inl h))
      · exact .inr (.inr (.inr (.inl h)))
      · exact .inr (.inr (.inr (.inr h)))

/-! ### RELEASE -/

theorem exec_release (hr : s.resetPhase = .running) (hc : s.mailbox.cmd = 0) :
    exec .release s = .next (s.begun 0x09).releaseFence :=
  runCommand_free hr hc _ _

theorem State.releaseFence_broken (hm : s.epoch.mode = .broken) : s.releaseFence = s.reject .gateBroken := by
  rw [State.releaseFence, hm]

/-- Outside BROKEN the command completes with the gate's data (R54). -/
theorem State.releaseFence_eq (hm : s.epoch.mode ≠ .broken) {after : State}
    (ha : after = if s.gate.state = .fence ∧ s.gate.armed = none then (s.armRelease .command).examineRelease
      else s) : s.releaseFence = after.complete .done .none (releaseData after.gate) := by
  unfold State.releaseFence
  cases h : s.epoch.mode with
  | passthrough => rw [ha]
  | journaling => rw [ha]
  | broken => exact absurd h hm

theorem releaseData_eq (g : Gate) : releaseData g = field 4 1 (gateCode g.state) ||| field 5 1 (bit g.armed.isSome) := by
  rw [releaseData, GateState.code_eq_gateCode]

/-- The gate of an opened fence, in the result data (R54, R183). -/
theorem State.openedBy_data (s : State) (cause : ReleaseCause) :
    releaseData (s.openedBy cause).gate =
      field 4 1 (if s.ops.holds .seal || s.ops.holds .stop then 1 else 0) ||| field 5 1 0 := by
  have hcode (b : Bool) : gateCode (if b then .holdTracked else .pass) = if b then 1 else 0 := by
    cases b <;> rfl
  rw [releaseData_eq, ← hcode]
  rfl

/-- Settles O38: by the mode, the gate and the flag. -/
theorem theReleaseCommand : Obligations.TheReleaseCommand := by
  intro s hr hc
  rw [exec_release hr hc]
  refine ⟨fun hm => ?_, fun hm hg ha => ⟨fun hf hroll => ?_, fun h => ?_⟩, fun hm hg ha => ?_,
    fun hm hg ha => ?_⟩
  · rw [State.releaseFence_broken (s := s.begun 0x09) hm, State.begun_reject]
  · have harm : (s.begun 0x09).armRelease .command =
        { s.begun 0x09 with gate := { s.gate with armed := some .command } } :=
      State.armRelease_free (s := s.begun 0x09) ha
    have hafter : (s.begun 0x09).openedBy .command =
        if (s.begun 0x09).gate.state = .fence ∧ (s.begun 0x09).gate.armed = none then
          ((s.begun 0x09).armRelease .command).examineRelease else s.begun 0x09 := by
      rw [if_pos ⟨hg, ha⟩, harm, State.examineRelease_opens
        (s := { s.begun 0x09 with gate := { s.gate with armed := some .command } }) hg rfl hf hroll hm]
      rfl
    rw [State.releaseFence_eq (s := s.begun 0x09) hm hafter, State.openedBy_data]
    rfl
  · have harm : (s.begun 0x09).armRelease .command =
        { s.begun 0x09 with gate := { s.gate with armed := some .command } } :=
      State.armRelease_free (s := s.begun 0x09) ha
    have hafter : { s.begun 0x09 with gate := { s.gate with armed := some .command } } =
        if (s.begun 0x09).gate.state = .fence ∧ (s.begun 0x09).gate.armed = none then
          ((s.begun 0x09).armRelease .command).examineRelease else s.begun 0x09 := by
      rw [if_pos ⟨hg, ha⟩, harm, State.examineRelease_stays]
      exact .inr (.inr (h.imp id .inl))
    rw [State.releaseFence_eq (s := s.begun 0x09) hm hafter, releaseData_eq, hg]
    rfl
  · obtain ⟨cause, hcause⟩ := Option.ne_none_iff_exists'.mp ha
    have hafter : s.begun 0x09 =
        if (s.begun 0x09).gate.state = .fence ∧ (s.begun 0x09).gate.armed = none then
          ((s.begun 0x09).armRelease .command).examineRelease else s.begun 0x09 :=
      (if_neg fun h => ha h.2).symm
    rw [State.releaseFence_eq (s := s.begun 0x09) hm hafter, releaseData_eq, State.begun_gate, hg, hcause]
    rfl
  · have hafter : s.begun 0x09 =
        if (s.begun 0x09).gate.state = .fence ∧ (s.begun 0x09).gate.armed = none then
          ((s.begun 0x09).armRelease .command).examineRelease else s.begun 0x09 :=
      (if_neg fun h => hg h.1).symm
    rw [State.releaseFence_eq (s := s.begun 0x09) hm hafter, releaseData_eq, State.begun_gate, ha]
    rfl

end

end Sys2Proof.Machine
end


section
/-! PROOFS. The restore walk: the end of DRAIN, the reads and the write back of a record, and the walk that fails. -/
namespace Sys2Proof.Machine
set_option Elab.async false

/-! ### The two reads of a record -/

theorem ReadPair.onAnswer_eq (c : ReadPair) (line : RecordLine) (a : MemAnswer) :
    c.onAnswer line a = c.put line ((c.slot line).onAnswer a) := by
  cases line <;> rfl

@[simp] theorem ReadPair.slot_put (c : ReadPair) (line : RecordLine) (r : ReadSlot) :
    (c.put line r).slot line = r := by
  cases line <;> rfl

@[simp] theorem ReadPair.slot_put_other (c : ReadPair) (line : RecordLine) (r : ReadSlot) :
    (c.put line r).slot line.other = c.slot line.other := by
  cases line <;> rfl

/-- A read that fails early is asked for again (R124, R136). -/
theorem ReadPair.onAnswer_failsEarly {c : ReadPair} {line : RecordLine} {a : MemAnswer} {n : Nat}
    (h : c.failsEarly line a n) : c.onAnswer line a = c.put line (.asking (n + 1)) := by
  obtain ⟨hs, rfl, hn⟩ := h
  rw [ReadPair.onAnswer_eq, hs]
  exact congrArg _ (if_pos hn)

/-- How a read ends with an answer (R136). -/
def endedRead : MemAnswer → ReadSlot
  | .okay d => .got d
  | .error => .failed

/-- How a read ends that an answer ends (R136). -/
theorem ReadSlot.onAnswer_of_endsWith {r : ReadSlot} {a : MemAnswer} (h : (r.endsWith a).isSome = true) :
    r.onAnswer a = endedRead a := by
  cases r with
  | asking n =>
    cases a with
    | okay d => rfl
    | error =>
      have hn : ¬n < Config.attempts := fun hn => by
        have hn : n < 3 := hn
        simp [ReadSlot.endsWith, not_le.mpr hn] at h
      exact if_neg hn
  | idle => exact nomatch h
  | got d => exact nomatch h
  | failed => exact nomatch h

theorem ReadPair.onAnswer_endsFirst {c : ReadPair} {line : RecordLine} {a : MemAnswer} {r : ReadSlot}
    (h : c.endsFirst line a r) : c.onAnswer line a = c.put line r := by
  obtain ⟨-, he, rfl⟩ := h
  rw [ReadPair.onAnswer_eq, ReadSlot.onAnswer_of_endsWith he]
  cases a <;> rfl

/-- The third failure of a read ends it (R124, R136). -/
theorem ReadPair.onAnswer_third {c : ReadPair} {line : RecordLine} {n : Nat} (hs : c.slot line = .asking n)
    (hn : 3 ≤ n) : (c.onAnswer line .error).slot line = .failed := by
  rw [ReadPair.onAnswer_eq, ReadPair.slot_put, hs]
  exact if_neg (not_lt.mpr hn)

section
variable {s : State} {sl : Slot} {w : Walk} {p n : Nat} {line : RecordLine} {a : MemAnswer} {image header : Line}

/-! ### The end of DRAIN -/

theorem exec_drainEnd (hr : s.resetPhase = .running) : exec .drainEnd s = .next s.drainEnds :=
  whileRunning_running hr fun s => s.drainEnds

theorem State.drainDone_capturesGranted (h : s.drainDone = true) : s.capturesGranted := by
  obtain ⟨hd, -⟩ := State.drainDone_iff.mp h
  refine .inr fun e he hs => ?_
  rcases drainedFrom_states _ hd e he with hst | hst <;> exact nomatch hs.symm.trans hst

/-- DRAIN's conditions decide what DRAIN_END does (R117). -/
theorem State.drainEnds_eq (hs : s.ops.slot = some sl) (ho : sl.operation = .rollback) (hp : sl.phase = .drain)
    (hw : s.engine = some w) :
    s.drainEnds =
      if s.drainDone = true then
        (if s.journal.head = w.targetStart then s.settle sl w else s.beginRestore w).closeStep
      else s := by
  simp only [State.drainEnds, hs, hw, ho, hp, true_and]

/-- A step that leaves the WAQ and the Capture Buffer grants nothing (R71). -/
theorem State.closeStep_same {u : State} (hg : s.capturesGranted) (hw : u.waq = s.waq)
    (hc : u.captures = s.captures) :
    u.closeStep = { u with mport := { u.mport with ageClock := u.mport.ageClock + 1 } } :=
  State.closeStep_of_capturesGranted (by rwa [State.capturesGranted, hw, hc])

/-- Settles O27: the conditions of R117 decide, and the walk begins at head - 1. -/
theorem drainEndsInRestore : Obligations.DrainEndsInRestore := by
  intro s sl w hr hs ho hp hw
  rw [exec_drainEnd hr, State.drainEnds_eq hs ho hp hw]
  refine ⟨fun hd => by rw [if_neg (by simp [hd])], fun hd hne => ?_⟩
  have hg : (s.beginRestore w).capturesGranted := State.drainDone_capturesGranted (s := s) hd
  rw [if_pos hd, if_neg hne, State.closeStep_of_capturesGranted hg]
  simp only [State.beginRestore, State.beginRecord, State.joinRecordReads, State.joinLineRead, State.join, hs,
    Option.map_some, List.append_assoc]
  rfl

/-! ### A record of the walk -/

theorem restoreAddr_eq_writeBackAddr (header : Line) :
    restoreAddr (headerLine (lineHeader header)) = writeBackAddr header := by
  unfold restoreAddr writeBackAddr
  congr 1
  rw [BitVec.shiftLeft_eq_mul_twoPow]
  rfl

/-- The state after the walk's reads have become `current` (R122). -/
def State.walkReads (s : State) (w : Walk) (current : ReadPair) : State :=
  { s with engine := some { w with current := current } }

/-- A restore read that is to be made again (R124). -/
theorem State.restoreRead_again (hs : s.ops.slot = some sl) (he : s.engine = some w) (hw : w.walk = some p)
    (h : w.current.failsEarly line a n) :
    s.restoreRead line a = (s.walkReads w (w.current.put line (.asking (n + 1)))).joinLineRead
      (restoreOwner line) (s.journal.lineAddr p line) := by
  obtain ⟨te, ts, walk, current, attempt⟩ := w
  obtain rfl : walk = some p := hw
  simp only [State.restoreRead, hs, he, ReadPair.onAnswer_failsEarly h, ReadPair.slot_put]
  rfl

/-- The first of the two reads to be answered OKAY is kept (R122). -/
theorem State.restoreRead_first (hs : s.ops.slot = some sl) (he : s.engine = some w) (hw : w.walk = some p)
    (h : w.current.endsFirst line a (.got image)) :
    s.restoreRead line a = s.walkReads w (w.current.put line (.got image)) := by
  obtain ⟨te, ts, walk, current, attempt⟩ := w
  obtain rfl : walk = some p := hw
  obtain ⟨⟨m, hm⟩, -⟩ := id h
  simp only [State.restoreRead, hs, he, ReadPair.onAnswer_endsFirst h, ReadPair.slot_put]
  cases line with
  | image =>
    have hm : current.header = .asking m := hm
    simp only [ReadPair.put, hm]
    rfl
  | header =>
    have hm : current.image = .asking m := hm
    simp only [ReadPair.put, hm]
    rfl

/-- With both reads answered OKAY the record is checked (R123). -/
theorem State.restoreRead_last (hs : s.ops.slot = some sl) (he : s.engine = some w) (hw : w.walk = some p)
    (h : w.current.onAnswer line a = ⟨.got image, .got header⟩) :
    s.restoreRead line a =
      if recordPasses p (s.expectedEpoch p) image (lineHeader header) = true then
        (s.walkReads w ⟨.got image, .got header⟩).writeBack { w with current := ⟨.got image, .got header⟩ }
          image header 1
      else
        (s.walkReads w ⟨.got image, .got header⟩).enterBroken sl
          { w with current := ⟨.got image, .got header⟩ } p .check := by
  obtain ⟨te, ts, walk, current, attempt⟩ := w
  obtain rfl : walk = some p := hw
  simp only [State.restoreRead, hs, he, h]
  cases line <;> rfl

/-- A restore read that has failed three times ends the walk (R124). -/
theorem State.restoreRead_fails (hs : s.ops.slot = some sl) (he : s.engine = some w) (hw : w.walk = some p)
    (h : (w.current.onAnswer line a).slot line = .failed) :
    s.restoreRead line a =
      ((s.walkReads w (w.current.onAnswer line a)).abandon (restoreOwner line.other)).enterBroken sl
        { w with current := w.current.onAnswer line a } p .memory := by
  obtain ⟨te, ts, walk, current, attempt⟩ := w
  obtain rfl : walk = some p := hw
  simp only [State.restoreRead, hs, he, h]
  rfl

/-- What a restore write's answer does, by the attempt (R122, R124). -/
theorem State.restoreWritten_okay (hs : s.ops.slot = some sl) (he : s.engine = some w) (hw : w.walk = some p)
    (hc : w.current = ⟨.got image, .got header⟩) (d : Line) :
    s.restoreWritten (.okay d) = s.restored sl w p := by
  simp only [State.restoreWritten, hs, he, hw, hc]

theorem State.restoreWritten_error (hs : s.ops.slot = some sl) (he : s.engine = some w) (hw : w.walk = some p)
    (hc : w.current = ⟨.got image, .got header⟩) :
    s.restoreWritten .error =
      if w.writeAttempt < 3 then s.writeBack w image header (w.writeAttempt + 1)
      else s.enterBroken sl w p .memory := by
  simp only [State.restoreWritten, hs, he, hw, hc]
  rfl

/-- The owners of the walk's requests (R122). -/
theorem State.ownerActs_restoreRead {r : Request} (h : r.owner = restoreOwner line) (a : MemAnswer) :
    s.ownerActs r a = s.restoreRead line a := by
  cases line <;> simp only [State.ownerActs, h, restoreOwner]

theorem State.ownerActs_restoreWrite {r : Request} (h : r.owner = .restoreWrite) (a : MemAnswer) :
    s.ownerActs r a = s.restoreWritten a := by
  simp only [State.ownerActs, h]

/-- The second of the two reads to be answered OKAY leaves both (R122). -/
theorem onAnswer_lastRead {r : Request} (h : LastRead r w image header n a) :
    ∃ line, r.owner = restoreOwner line ∧ w.current.onAnswer line a = ⟨.got image, .got header⟩ := by
  rcases h with ⟨ho, hc, rfl⟩ | ⟨ho, hc, rfl⟩
  · exact ⟨.header, ho, by rw [hc]; rfl⟩
  · exact ⟨.image, ho, by rw [hc]; rfl⟩

/-- Settles O28: by what the answer makes of the two reads, and of the write's attempt. -/
theorem theWalkRestoresOneRecordAtATime : Obligations.TheWalkRestoresOneRecordAtATime := by
  intro s ident r sl w p image header n a hr ho hs he hw hg
  refine ⟨fun hlast hpass => ?_, fun hown hc hne d => ?_,
    fun line c withheld hends hown => ⟨fun h => ?_, fun h => ?_⟩,
    fun c withheld hends hown hc hlt => ?_⟩
  · obtain ⟨line, hown, hboth⟩ := onAnswer_lastRead hlast
    have hpass' : recordPasses p ((s.freeRequest ident).expectedEpoch p) image (lineHeader header) = true := hpass
    rw [exec_answer hr ho, State.ownerActs_restoreRead hown,
      State.restoreRead_last (s := s.freeRequest ident) hs he hw hboth, if_pos hpass',
      State.closeStep_same hg, State.writeBack, State.joinLineWrite, restoreAddr_eq_writeBackAddr]
    all_goals rfl
  · rw [exec_answer hr ho, State.ownerActs_restoreWrite hown,
      State.restoreWritten_okay (s := s.freeRequest ident) hs he hw hc, State.restored, if_neg hne,
      State.closeStep_same hg]
    simp only [State.beginRecord, State.joinRecordReads, State.joinLineRead, State.join, List.append_assoc]
    all_goals rfl
  · have hown' : r.owner = restoreOwner line := by
      cases line <;> exact hown
    rw [exec_of_ends hends hr ho, State.ownerActs_restoreRead hown',
      State.restoreRead_again (s := s.afterEnd ident withheld) hs he hw h,
      State.closeStep_same hg, ← hown']
    all_goals rfl
  · have hown' : r.owner = restoreOwner line := by
      cases line <;> exact hown
    rw [exec_of_ends hends hr ho, State.ownerActs_restoreRead hown',
      State.restoreRead_first (s := s.afterEnd ident withheld) hs he hw h,
      State.closeStep_same hg]
    all_goals rfl
  · rw [exec_of_ends hends hr ho, State.ownerActs_restoreWrite hown,
      State.restoreWritten_error (s := s.afterEnd ident withheld) hs he hw hc, if_pos hlt,
      State.closeStep_same hg, State.writeBack, State.joinLineWrite, restoreAddr_eq_writeBackAddr]
    all_goals rfl

/-! ### A failed walk -/

theorem fenceCloses_clock {t : State} (h : fenceCloses s t) : t.mport.ageClock = s.mport.ageClock := by
  unfold fenceCloses at h
  split at h
  case isTrue => rw [h.2.2]
  case isFalse => rw [h.2.2]

/-- The clock of the arbiter's ages is none of the fence's. -/
theorem fenceCloses_aged {t : State} {clock : Nat} (h : fenceCloses s t) (hc : t.mport.ageClock = clock) :
    fenceCloses s { t.aged with mport := { t.aged.mport with ageClock := clock } } := by
  subst hc
  exact h

/-- The entry into BROKEN at `p` (R49, R129). -/
theorem State.enterBroken_eq (s : State) (sl : Slot) (w : Walk) (p : Nat) (why : WalkFailure) :
    fenceCloses s (s.enterBroken sl w p why) ∧
      s.enterBroken sl w p why = { s with
        epoch := { mode := .broken, counter := 0, table := [] }
        gate := ⟨.fence, none, none⟩
        ltt := []
        engine := none
        ops :=
          { slot := none, owed := ⟨false, false, false⟩,
            abortPending := if sl.command then false else s.ops.abortPending }
        timer := { s.timer with countdown := .stopped }
        recovery := { s.recovery with outcome := why.outcome, phase := .restore, failingPosition := p }
        mailbox := s.mailbox.completed sl.command .failed .restoreFailed
          (recoveryFields { s.recovery with outcome := why.outcome, phase := .restore, failingPosition := p })
        events := (s.events.offers s.epoch.counter (fenceReports s)).offers 0
          (⟨.rollbackFailed, 0, w.targetEpoch, BitVec.ofNat 64 p, why.code⟩ ::
            completionOf s sl 0 .failed .restoreFailed)
        waq := (s.enterBroken sl w p why).waq
        answers := (s.enterBroken sl w p why).answers
        mport := (s.enterBroken sl w p why).mport } := by
  have hclose := State.enterFence_closes { s with epoch := { s.epoch with mode := .broken } }
  have heq := State.enterFence_eq { s with epoch := { s.epoch with mode := .broken } }
  unfold State.enterBroken
  simp only [State.completeIf_eq]
  refine ⟨hclose, ?_⟩
  rw [heq]
  rfl

/-- What a failed walk leaves, `m` being the M port without the requests that have ended or are not needed any
more (R129, R153). -/
theorem State.walkFails (hg : s.capturesGranted) (e : Option Walk) (m : MPort)
    (hm : m.ageClock = s.mport.ageClock) (why : WalkFailure) :
    ∃ t : State, (State.enterBroken { s with engine := e, mport := m } sl w p why).closeStep = t ∧
      fenceCloses { s with mport := m } { t with mport := { t.mport with ageClock := s.mport.ageClock } } ∧
      t.mport.ageClock = s.mport.ageClock + 1 ∧
      t.recovery = { s.recovery with outcome := why.outcome, phase := .restore, failingPosition := p } ∧
      t = { s with
        epoch := { mode := .broken, counter := 0, table := [] }
        gate := ⟨.fence, none, none⟩
        ltt := []
        engine := none
        ops :=
          { slot := none, owed := ⟨false, false, false⟩,
            abortPending := if sl.command then false else s.ops.abortPending }
        timer := { s.timer with countdown := .stopped }
        recovery := t.recovery
        mailbox := s.mailbox.completed sl.command .failed .restoreFailed (recoveryFields t.recovery)
        events := (s.events.offers s.epoch.counter (fenceReports s)).offers 0
          (⟨.rollbackFailed, 0, w.targetEpoch, BitVec.ofNat 64 p, why.code⟩ ::
            completionOf s sl 0 .failed .restoreFailed)
        waq := t.waq
        answers := t.answers
        mport := t.mport } := by
  obtain ⟨hclose, heq⟩ := State.enterBroken_eq { s with engine := e, mport := m } sl w p why
  have hclock := (fenceCloses_clock hclose).trans hm
  have hcap : (State.enterBroken { s with engine := e, mport := m } sl w p why).captures = s.captures := by
    rw [heq]
  have hgranted : (State.enterBroken { s with engine := e, mport := m } sl w p why).capturesGranted :=
    fenceCloses_capturesGranted (s := { s with engine := e, mport := m }) hclose hcap hg
  refine ⟨_, State.closeStep_of_capturesGranted hgranted, fenceCloses_aged hclose hclock,
    congrArg (· + 1) hclock, ?_, ?_⟩
  · rw [heq]
  · rw [heq]
    rfl

/-- A restore read fails for the third time: the other read of the record is abandoned (R124, R153). -/
theorem State.walkReadFails {ident : BitVec 8} {withheld : List Withheld} (hs : s.ops.slot = some sl)
    (he : s.engine = some w) (hw : w.walk = some p)
    (hread : w.current.slot line = .asking n) (hn : 3 ≤ n) :
    ∃ m, RequestAbandoned (restoreOwner line.other) (s.afterEnd ident withheld).mport m ∧
      m.ageClock = s.mport.ageClock ∧
      (s.afterEnd ident withheld).restoreRead line .error =
        State.enterBroken { s with engine := some { w with current := w.current.onAnswer line .error }, mport := m }
          sl { w with current := w.current.onAnswer line .error } p .memory := by
  obtain ⟨m, hm, hab⟩ := ((s.afterEnd ident withheld).walkReads w (w.current.onAnswer line .error)).abandon_spec
    (restoreOwner line.other)
  refine ⟨m, hm, by rw [hm.1]; rfl, ?_⟩
  rw [State.restoreRead_fails (s := s.afterEnd ident withheld) hs he hw (ReadPair.onAnswer_third hread hn), hab]
  rfl

/-- Settles O30: whichever request fails, the walk ends in `State.enterBroken` (`State.walkFails`). -/
theorem aFailedWalkBreaksThePart : Obligations.AFailedWalkBreaksThePart := by
  rintro s ident r sl w p image header n a outcome count unneeded x withheld ended hr hends ho hs - he hw hg rfl
    hcase
  have hexec := exec_of_ends hends hr ho
  rcases hcase with ⟨hlast, hbad, rfl, rfl, rfl⟩ | ⟨hown, hread, hn, rfl, rfl, rfl, rfl⟩ |
    ⟨hown, hread, hn, rfl, rfl, rfl, rfl⟩ | ⟨hown, hc, hn, rfl, rfl, rfl, rfl⟩
  · obtain ⟨line, hown, hboth⟩ := onAnswer_lastRead hlast
    have hbad' : ¬recordPasses p ((s.afterEnd ident withheld).expectedEpoch p) image (lineHeader header) = true :=
      by rw [Bool.not_eq_true]; exact hbad
    rw [State.ownerActs_restoreRead hown,
      State.restoreRead_last (s := s.afterEnd ident withheld) hs he hw hboth, if_neg hbad'] at hexec
    obtain ⟨t, ht, hclose, hclock, hrec, heq⟩ := State.walkFails (sl := sl) (w := w) (p := p) hg
      (some { w with current := ⟨.got image, .got header⟩ }) (s.afterEnd ident withheld).mport rfl .check
    exact ⟨t, _, hexec.trans (congrArg _ ht), fun _ => rfl, fun _ h => absurd h (Option.some_ne_none _).symm,
      hclose, hclock, hrec, heq⟩
  · obtain ⟨m, hm, hclock', hfails⟩ := State.walkReadFails (line := .image) (ident := ident)
      (withheld := withheld) hs he hw hread hn
    rw [State.ownerActs_restoreRead (line := .image) hown, hfails] at hexec
    obtain ⟨t, ht, hclose, hclock, hrec, heq⟩ := State.walkFails (sl := sl) (p := p) hg
      (w := { w with current := w.current.onAnswer .image .error })
      (some { w with current := w.current.onAnswer .image .error }) m hclock' .memory
    exact ⟨t, m, hexec.trans (congrArg _ ht), fun h => absurd h (Option.some_ne_none _),
      fun _ h => Option.some.inj h ▸ hm, hclose, hclock, hrec, heq⟩
  · obtain ⟨m, hm, hclock', hfails⟩ := State.walkReadFails (line := .header) (ident := ident)
      (withheld := withheld) hs he hw hread hn
    rw [State.ownerActs_restoreRead (line := .header) hown, hfails] at hexec
    obtain ⟨t, ht, hclose, hclock, hrec, heq⟩ := State.walkFails (sl := sl) (p := p) hg
      (w := { w with current := w.current.onAnswer .header .error })
      (some { w with current := w.current.onAnswer .header .error }) m hclock' .memory
    exact ⟨t, m, hexec.trans (congrArg _ ht), fun h => absurd h (Option.some_ne_none _),
      fun _ h => Option.some.inj h ▸ hm, hclose, hclock, hrec, heq⟩
  · rw [State.ownerActs_restoreWrite hown,
      State.restoreWritten_error (s := s.afterEnd ident withheld) hs he hw hc, if_neg (by omega)] at hexec
    obtain ⟨t, ht, hclose, hclock, hrec, heq⟩ := State.walkFails (sl := sl) (w := w) (p := p) hg
      s.engine (s.afterEnd ident withheld).mport rfl .memory
    exact ⟨t, _, hexec.trans (congrArg _ ht), fun _ => rfl, fun _ h => absurd h (Option.some_ne_none _).symm,
      hclose, hclock, hrec, heq⟩

end

end Sys2Proof.Machine
end


section
/-! PROOFS. The freeing of the slot: the seal that the owed flags start, and the fence that a rollback opens as it
leaves. -/
namespace Sys2Proof.Machine
set_option Elab.async false

section
variable {s t : State} {owed : SealSources} {moves : Bool}

/-! ### The seal that the owed flags start -/

theorem State.owedSeal_congr (hj : t.journal = s.journal) (he : t.timer.extend = s.timer.extend)
    (owed : SealSources) (moves : Bool) : t.owedSeal owed moves = s.owedSeal owed moves := by
  unfold State.owedSeal
  rw [hj, he]

/-- A seal that the owed flags start is recorded as having moved the gate when it has (R50). -/
theorem State.owedSeal_moved (s : State) (owed : SealSources) (moves : Bool) :
    (s.owedSeal owed moves).map (fun sl => { sl with moved := true }) = s.owedSeal owed true := by
  unfold State.owedSeal
  simp only
  split
  · rfl
  · split
    · rfl
    · split <;> rfl

theorem State.owedSeal_operation {sl : Slot} (h : s.owedSeal owed moves = some sl) : sl.operation = .seal := by
  unfold State.owedSeal at h
  simp only at h
  split at h
  · cases h
    rfl
  · split at h
    · cases h
      rfl
    · split at h
      · cases h
        rfl
      · exact nomatch h

/-- The slot frees: what the examination of the owed flags leaves (R91, R102). -/
theorem State.freeSlot_frees (h : s.epoch.mode = .journaling) :
    SlotFreed s s.freeSlot s.ops.owed s.gate s.timer.countdown false ∧
      s.freeSlot = { s with
        ops := { s.freeSlot.ops with abortPending := s.ops.abortPending }
        gate := s.freeSlot.gate
        timer := s.freeSlot.timer
        waq := if s.freeSlot.ops.slot = none then s.waq else s.waq.map fun e => { e with beforeHold := true } } := by
  have hops := State.freeSlot_owedSeal h
  have hslot : s.freeSlot.ops.slot = s.owedSeal s.ops.owed (s.gate.state == .pass || false) := by
    rw [hops, Bool.or_false]
  have howed : s.freeSlot.ops.owed = ⟨s.ops.owed.timer && s.timer.extend, false, false⟩ := by rw [hops]
  rcases State.freeSlot_journaling h with ⟨-, heq⟩ | ⟨src, -, heq⟩
  · refine ⟨⟨hslot, howed, ?_, ?_⟩, ?_⟩
    · rw [heq]
      simp
    · rw [heq]
      simp
    · rw [heq]
      simp
  · refine ⟨⟨hslot, howed, ?_, ?_⟩, ?_⟩
    · rw [heq]
      simp [State.startGather]
    · rw [heq]
      simp [State.startGather]
    · rw [heq]
      simp [State.startGather]

/-- What frees the slot need only be known up to what the examination reads (R91). -/
theorem SlotFreed.congr {s' t' : State} {gate : Gate} {countdown : Countdown} {opens : Bool}
    (h : SlotFreed s t owed gate countdown opens) (hj : s'.journal = s.journal)
    (ht : s'.timer = { s.timer with countdown := s'.timer.countdown }) (hs' : t'.ops.slot = t.ops.slot)
    (ho' : t'.ops.owed = t.ops.owed) (hg' : t'.gate = t.gate) (ht' : t'.timer = t.timer) :
    SlotFreed s' t' owed gate countdown opens := by
  obtain ⟨hslot, howed, hgate, htimer⟩ := h
  have he : s'.timer.extend = s.timer.extend := by rw [ht]
  refine ⟨?_, ?_, ?_, ?_⟩
  · rw [hs', hslot, State.owedSeal_congr hj he]
  · rw [ho', howed, he]
  · rw [hg', hs', hgate]
  · rw [ht', hs', htimer, ht]

/-- The fence opens as a rollback leaves the slot (R52, R127). -/
def State.leaveOpens (s : State) : Bool :=
  s.gate.state == .fence && s.gate.armed.isSome && !s.faultLevel

/-- A rollback leaves the slot: the owed flags and the release conditions are examined (R52, R91). -/
theorem State.leaveRollback_frees (h : s.epoch.mode = .journaling) :
    SlotFreed s s.leaveRollback s.ops.owed s.gate s.timer.countdown s.leaveOpens ∧
      s.leaveRollback = { s with
        engine := none
        ops := { s.leaveRollback.ops with abortPending := s.ops.abortPending }
        gate := s.leaveRollback.gate
        timer := s.leaveRollback.timer
        waq := if s.leaveRollback.ops.slot = none then s.waq
          else s.waq.map fun e => { e with beforeHold := true }
        events := s.events.offers s.epoch.counter
          (if s.leaveOpens then [gateReleased s.epoch.counter s.gate.armed] else []) } := by
  obtain ⟨⟨hslot, howed, hgate, htimer⟩, hframe⟩ := State.freeSlot_frees (s := { s with engine := none }) h
  rw [Bool.or_false] at hslot
  simp only [Bool.false_eq_true, if_false] at hgate
  have hfence : (State.freeSlot { s with engine := none }).gate.state = .fence ↔ s.gate.state = .fence := by
    rw [hgate]
    simp only
    split
    case isTrue hp => simp [hp.2]
    case isFalse => exact Iff.rfl
  have harmed : (State.freeSlot { s with engine := none }).gate.armed = s.gate.armed := by rw [hgate]
  have hlevel : (State.freeSlot { s with engine := none }).faultLevel = s.faultLevel := by rw [hframe]
  have hmode : (State.freeSlot { s with engine := none }).epoch = s.epoch := by rw [hframe]
  have hroll : (State.freeSlot { s with engine := none }).ops.holds .rollback = false := by
    unfold OpCtl.holds
    cases hsl : (State.freeSlot { s with engine := none }).ops.slot with
    | none => rfl
    | some sl =>
      rw [hslot] at hsl
      rw [Option.any_some, State.owedSeal_operation hsl]
      rfl
  have hdue : (State.freeSlot { s with engine := none }).releaseDue = s.leaveOpens := by
    rw [Bool.eq_iff_iff, State.releaseDue_iff, OpCtl.holdsRollback_eq, hfence, harmed, hlevel, hmode, hroll, h]
    simp [State.leaveOpens, and_assoc]
  have hleave : s.leaveRollback = (State.freeSlot { s with engine := none }).examineRelease := rfl
  rcases (State.freeSlot { s with engine := none }).examineRelease_cases with ⟨hd, he⟩ | ⟨hd, he⟩
  · rw [hdue] at hd
    have hs : s.gate.armed.isSome = true := by
      simp only [State.leaveOpens, Bool.and_eq_true] at hd
      exact hd.1.2
    obtain ⟨cause, hcause⟩ := Option.isSome_iff_exists.mp hs
    have hopened := State.openFence_eq (harmed.trans hcause)
    have hmoved : ((State.freeSlot { s with engine := none }).openedBy cause).ops.slot =
        s.owedSeal s.ops.owed true := by
      have hseal (sl : Slot) (hsl : sl ∈ (State.freeSlot { s with engine := none }).ops.slot) :
          sl.operation = .seal := by
        rw [hslot] at hsl
        exact State.owedSeal_operation hsl
      have hmap : ((State.freeSlot { s with engine := none }).openedBy cause).ops.slot =
          (State.freeSlot { s with engine := none }).ops.slot.map fun sl => { sl with moved := true } :=
        Option.map_congr fun sl hsl => if_pos (.inl (hseal sl hsl))
      rw [hmap, hslot]
      exact s.owedSeal_moved _ _
    have hgathers : ((State.freeSlot { s with engine := none }).ops.holds .seal ||
        (State.freeSlot { s with engine := none }).ops.holds .stop) =
        ((State.freeSlot { s with engine := none }).ops.slot).isSome := by
      unfold OpCtl.holds
      cases hsl : (State.freeSlot { s with engine := none }).ops.slot with
      | none => rfl
      | some sl =>
        rw [hslot] at hsl
        rw [Option.any_some, Option.any_some, State.owedSeal_operation hsl]
        rfl
    have hnone : ((State.freeSlot { s with engine := none }).openedBy cause).ops.slot = none ↔
        (State.freeSlot { s with engine := none }).ops.slot = none := Option.map_eq_none_iff
    rw [hleave, he, hopened, hd]
    refine ⟨⟨by rw [hmoved, Bool.or_true], howed, ?_, ?_⟩, ?_⟩
    · have hgate' : (((State.freeSlot { s with engine := none }).openedBy cause).gate) =
          ⟨if (State.freeSlot { s with engine := none }).ops.slot = none then .pass else .holdTracked, none,
            none⟩ := by
        unfold State.openedBy
        rw [hgathers]
        cases (State.freeSlot { s with engine := none }).ops.slot <;> rfl
      rw [hgate', if_pos rfl]
      simp only [hnone]
    · simp only [hnone]
      exact htimer
    · simp only [hnone, if_true]
      rw [hcause]
      unfold State.openedBy
      rw [hframe]
      rfl
  · rw [hdue] at hd
    rw [hleave, he, hd]
    refine ⟨⟨by rw [Bool.or_false]; exact hslot, howed, ?_, htimer⟩, ?_⟩
    · simpa using hgate
    · exact hframe

end

end Sys2Proof.Machine
end


section
/-! PROOFS. The Journal Checker: the reads of a READ_RECORD and of VERIFY, and the scan. -/
namespace Sys2Proof.Machine
set_option Elab.async false

/-! ### The end of the second read -/

/-- How a read has ended that brought this (R136). -/
def endedWith : Option Line → ReadSlot
  | some d => .got d
  | none => .failed

@[simp] theorem endedWith_isAsking (x : Option Line) : (endedWith x).isAsking = false := by
  cases x <;> rfl

@[simp] theorem endedWith_data (x : Option Line) : (endedWith x).data = x.getD 0 := by
  cases x <;> rfl

@[simp] theorem endedWith_succeeded (x : Option Line) : (endedWith x).succeeded = x.isSome := by
  cases x <;> rfl

theorem ReadSlot.eq_of_outcome {r : ReadSlot} {x : Option Line} (h : r.outcome = some x) : r = endedWith x := by
  cases r with
  | idle => exact nomatch h
  | asking n => exact nomatch h
  | got d =>
    cases h
    rfl
  | failed =>
    cases h
    rfl

/-- What an answer that ends a read leaves of it (R136). -/
theorem ReadSlot.onAnswer_eq_endedWith {r : ReadSlot} {a : MemAnswer} {x : Option Line}
    (h : r.endsWith a = some x) : r.onAnswer a = endedWith x := by
  rw [ReadSlot.onAnswer_of_endsWith (Option.isSome_of_mem h)]
  cases r with
  | asking n =>
    cases a with
    | okay d =>
      cases h
      rfl
    | error =>
      simp only [ReadSlot.endsWith, Option.ite_none_right_eq_some] at h
      obtain ⟨-, h⟩ := h
      cases h
      rfl
  | idle => exact nomatch h
  | got d => exact nomatch h
  | failed => exact nomatch h

/-- The end of the second read leaves how both ended (R136, R143). -/
theorem ReadPair.onAnswer_endsBoth {c : ReadPair} {line : RecordLine} {a : MemAnswer} {image header : Option Line}
    (h : c.endsBoth line a image header) : c.onAnswer line a = ⟨endedWith image, endedWith header⟩ := by
  cases line with
  | image =>
    obtain ⟨hi, hh⟩ := h
    rw [ReadPair.onAnswer, ReadSlot.onAnswer_eq_endedWith hi, ReadSlot.eq_of_outcome hh]
  | header =>
    obtain ⟨hi, hh⟩ := h
    rw [ReadPair.onAnswer, ReadSlot.onAnswer_eq_endedWith hh, ReadSlot.eq_of_outcome hi]

theorem ReadPair.endsFirst_ended {c : ReadPair} {line : RecordLine} {a : MemAnswer} {r : ReadSlot}
    (h : c.endsFirst line a r) : r.isAsking = false ∧ (c.put line r).ended = false := by
  obtain ⟨⟨m, hm⟩, -, rfl⟩ := h
  refine ⟨by cases a <;> rfl, ?_⟩
  cases line with
  | image =>
    have hm : c.header = .asking m := hm
    simp [ReadPair.put, ReadPair.ended, hm, ReadSlot.isAsking]
  | header =>
    have hm : c.image = .asking m := hm
    simp [ReadPair.put, ReadPair.ended, hm, ReadSlot.isAsking]

section
variable {s : State} {i : Inspection} {sc : Scan} {n : Nat} {line : RecordLine} {a : MemAnswer} {r : ReadSlot}
  {image header : Option Line}

/-! ### READ_RECORD -/

theorem State.inspectRead_again (hi : s.inspect = some i) (h : i.current.failsEarly line a n) :
    s.inspectRead line a =
      State.joinLineRead { s with inspect := some { i with current := i.current.put line (.asking (n + 1)) } }
        (inspectOwner line) (s.journal.lineAddr i.position line) := by
  simp only [State.inspectRead, hi, ReadPair.onAnswer_failsEarly h, ReadPair.slot_put, ReadSlot.isAsking, if_true]

theorem State.inspectRead_first (hi : s.inspect = some i) (h : i.current.endsFirst line a r) :
    s.inspectRead line a = { s with inspect := some { i with current := i.current.put line r } } := by
  obtain ⟨hr, hp⟩ := ReadPair.endsFirst_ended h
  simp only [State.inspectRead, hi, ReadPair.onAnswer_endsFirst h, ReadPair.slot_put, hr, hp, Bool.false_eq_true,
    if_false]

/-- With both reads ended the command completes (R143). -/
theorem State.inspectRead_last (hi : s.inspect = some i) (h : i.current.endsBoth line a image header) :
    s.inspectRead line a =
      State.complete
        { s with
          inspect := none
          draws := if image.isSome && header.isSome then s.draws else s.draws + 1 }
        .done .none (s.inspectionData { i with current := ⟨endedWith image, endedWith header⟩ }) := by
  have hasks : (ReadPair.slot ⟨endedWith image, endedWith header⟩ line).isAsking = false := by
    cases line with
    | image => exact endedWith_isAsking image
    | header => exact endedWith_isAsking header
  simp only [State.inspectRead, hi, ReadPair.onAnswer_endsBoth h, hasks, ReadPair.ended, endedWith_isAsking,
    Inspection.complete, endedWith_succeeded, Bool.not_false, Bool.and_self, Bool.false_eq_true, if_false, if_true]

/-- READ_RECORD's result data, from what the two reads brought (R143, R182). -/
theorem State.inspectionData_endedWith (s : State) (i : Inspection) (image header : Option Line) :
    s.inspectionData { i with current := ⟨endedWith image, endedWith header⟩ } =
      field 4 64 (image.getD 0).toNat ||| field 68 16 (lineHeader (header.getD 0)).toNat |||
        field 84 2 (s.computedCheck { i with current := ⟨endedWith image, endedWith header⟩ }).toNat |||
        field 86 1 (bit image.isSome + 2 * bit header.isSome) |||
        field 87 1
          (testField (image.isSome && header.isSome) (flagsTest (lineHeader (header.getD 0))) +
            4 * testField (image.isSome && header.isSome) (lapTest i.position (lineHeader (header.getD 0))) +
            16 * testField (image.isSome && header.isSome)
              (checkTest (image.getD 0) (lineHeader (header.getD 0))) +
            64 * testField (image.isSome && header.isSome && s.epochTestMade i.position)
              (s.expectedEpoch i.position == some (headerEpoch (lineHeader (header.getD 0))))) |||
        field 88 1 (bit (inRange s i.position)) |||
        field 89 6 (if image.isSome && header.isSome && s.epochTestMade i.position then
          (s.expectedEpoch i.position).getD 0 else 0) := by
  simp only [State.inspectionData, Inspection.complete, endedWith_succeeded, endedWith_data]
  cases hm : s.epochTestMade i.position with
  | true => rfl
  | false =>
    simp only [Bool.and_false, testBits, testField, Bool.false_eq_true, if_false]
    rfl

theorem State.ownerActs_inspect {q : Request} (h : q.owner = inspectOwner line) (a : MemAnswer) :
    s.ownerActs q a = s.inspectRead line a := by
  cases line <;> simp only [State.ownerActs, h, inspectOwner]

/-- Settles O46: by what the answer makes of the pair of reads (`ReadPair.onAnswer_failsEarly`, `_endsFirst`,
`_endsBoth`). -/
theorem aReadRecordCompletes : Obligations.AReadRecordCompletes := by
  intro s ident q i line a c withheld hr ho hends hown hi hg
  have hown' : q.owner = inspectOwner line := by
    cases line <;> exact hown
  rw [exec_of_ends hends hr ho, State.ownerActs_inspect hown']
  refine ⟨fun n h => ?_, fun ended h => ?_, fun image header h both made expected hboth hh hb hm he => ?_⟩
  · rw [State.inspectRead_again (s := s.afterEnd ident withheld) hi h, State.closeStep_same hg, ← hown']
    all_goals rfl
  · rw [State.inspectRead_first (s := s.afterEnd ident withheld) hi h, State.closeStep_same hg]
    all_goals rfl
  · subst hh hb hm he
    refine ⟨_, (s.afterEnd ident withheld).computedCheck
      { i with current := ⟨endedWith image, endedWith header⟩ }, rfl, fun hb => ?_, ?_⟩
    · simp only [State.computedCheck, Inspection.complete, endedWith_succeeded, endedWith_data, hb, if_true]
    · rw [State.inspectRead_last (s := s.afterEnd ident withheld) hi hboth, State.closeStep_same hg]
      · rw [State.inspectionData_endedWith]
        rfl
      all_goals rfl

/-! ### VERIFY -/

theorem State.verifyRead_again (hs : s.scan = some sc) (h : sc.current.failsEarly line a n) :
    s.verifyRead line a =
      State.joinLineRead { s with scan := some { sc with current := sc.current.put line (.asking (n + 1)) } }
        (verifyOwner line) (s.journal.lineAddr sc.position line) := by
  simp only [State.verifyRead, hs, ReadPair.onAnswer_failsEarly h, ReadPair.slot_put, ReadSlot.isAsking, if_true]

theorem State.verifyRead_first (hs : s.scan = some sc) (h : sc.current.endsFirst line a r) :
    s.verifyRead line a = { s with scan := some { sc with current := sc.current.put line r } } := by
  obtain ⟨hr, hp⟩ := ReadPair.endsFirst_ended h
  simp only [State.verifyRead, hs, ReadPair.onAnswer_endsFirst h, ReadPair.slot_put, hr, hp, Bool.false_eq_true,
    if_false]

/-- With both reads ended the record is taken (R136). -/
theorem State.verifyRead_last (hs : s.scan = some sc) (h : sc.current.endsBoth line a image header) :
    s.verifyRead line a =
      State.takeScanned { s with scan := some { sc with current := ⟨endedWith image, endedWith header⟩ } }
        { sc with current := ⟨endedWith image, endedWith header⟩ } := by
  have hasks : (ReadPair.slot ⟨endedWith image, endedWith header⟩ line).isAsking = false := by
    cases line with
    | image => exact endedWith_isAsking image
    | header => exact endedWith_isAsking header
  simp only [State.verifyRead, hs, ReadPair.onAnswer_endsBoth h, hasks, ReadPair.ended, endedWith_isAsking,
    Bool.not_false, Bool.and_self, Bool.false_eq_true, if_false, if_true]

/-- The verdict over a record (R136, R137). -/
theorem State.scanVerdict_endedWith (s : State) (sc : Scan) (image header : Option Line) :
    s.scanVerdict { sc with current := ⟨endedWith image, endedWith header⟩ } =
      (image.isNone || header.isNone ||
        !recordPasses sc.position (s.expectedEpoch sc.position) (image.getD 0) (lineHeader (header.getD 0)),
        image.isNone || header.isNone) := by
  cases image with
  | none => rfl
  | some d =>
    cases header with
    | none => rfl
    | some e => rfl

/-- The table after a record was taken (R7, R138). -/
def scannedTable (tail p : Nat) (bad : Bool) (table : List Checkpoint) : List Checkpoint :=
  if tail ≤ p ∧ bad = true then
    table.map fun x => if x.start ≤ p ∧ x.condition = .usable then { x with condition := .damaged } else x
  else table

/-- The scan goes on from `sc`, whose position tail has not passed, or completes there (R136, R139). -/
def State.scanFrom (s : State) (sc : Scan) : State :=
  if sc.scanEnd ≤ sc.position then s.completeScan sc
  else
    State.joinRecordReads { s with scan := some { sc with current := .first } }
      .verifyImage .verifyHeader sc.position

theorem State.scanOn_eq (s : State) (sc : Scan) : s.scanOn sc = s.scanFrom (sc.skipTo s.journal.tail) := rfl

theorem Scan.skipTo_of_le {tail : Nat} (h : tail ≤ sc.position) : sc.skipTo tail = sc :=
  if_neg (not_lt.mpr h)

/-- A record is taken: it marks the damage it shows, and the scan goes on (R136, R138). -/
theorem State.takeScanned_endedWith {bad unreadable : Bool}
    (h : s.scanVerdict sc = (bad, unreadable)) :
    s.takeScanned sc =
      State.scanFrom
        { s with epoch := { s.epoch with
            table := scannedTable s.journal.tail sc.position bad s.epoch.table } }
        (scanNext sc s.journal.tail bad unreadable) := by
  unfold State.takeScanned scannedTable scanNext
  by_cases hp : sc.position < s.journal.tail
  · have hn : ¬(s.journal.tail ≤ sc.position ∧ bad = true) := fun hn => absurd hp (not_lt.mpr hn.1)
    rw [if_pos hp, if_pos hp, if_neg hn, State.scanOn_eq, Scan.skipTo, if_pos hp]
  · have hle : s.journal.tail ≤ (sc.count bad unreadable).position := Nat.le_succ_of_le (not_lt.mp hp)
    have hcount : sc.count bad unreadable =
        { sc with
          checked := sc.checked + 1
          bad := if bad then sc.bad + 1 else sc.bad
          unreadable := if unreadable then sc.unreadable + 1 else sc.unreadable
          firstBad := if bad ∧ sc.bad = 0 then sc.position else sc.firstBad
          position := sc.position + 1 } := by
      cases bad <;> cases unreadable <;> rfl
    rw [if_neg hp, if_neg hp, h, ← hcount]
    cases bad with
    | true =>
      rw [if_pos ⟨not_lt.mp hp, rfl⟩]
      exact (State.scanOn_eq _ _).trans (congrArg _ (Scan.skipTo_of_le hle))
    | false =>
      rw [if_neg (fun hb => Bool.false_ne_true hb.2)]
      exact (State.scanOn_eq _ _).trans (congrArg _ (Scan.skipTo_of_le hle))

/-- The scan has reached its end: the slot frees, and a seal that the owed flags qualify starts (R91, R139). -/
theorem State.completeScan_frees (h : s.epoch.mode = .journaling) (sc : Scan) :
    SlotFreed s (s.completeScan sc) s.ops.owed s.gate s.timer.countdown false ∧
      s.completeScan sc = { s with
        scan := none
        ops := { (s.completeScan sc).ops with abortPending := false }
        gate := (s.completeScan sc).gate
        timer := (s.completeScan sc).timer
        waq :=
          if (s.completeScan sc).ops.slot = none then s.waq else s.waq.map fun e => { e with beforeHold := true }
        mailbox := s.mailbox.completed true .done .none (scanFields sc)
        events := s.events.offers s.epoch.counter
          [⟨.verifyDone, 0, s.epoch.counter, BitVec.ofNat 64 sc.firstBad, min sc.bad 65535⟩,
            doneReport s.epoch.counter s.mailbox.cmd .done .none] } :=
  State.freeSlot_frees (s := (State.complete
    { s.report ⟨.verifyDone, 0, s.epoch.counter, BitVec.ofNat 64 sc.firstBad, count16 sc.bad⟩ with scan := none }
    .done .none (scanData sc))) h

/-- What stands in the WAQ before a hold began is no matter of the Capture Buffer (R48, R71). -/
theorem State.capturesGranted_marked {u : State} (hg : s.capturesGranted) {p : Prop} [Decidable p]
    (hw : u.waq = if p then s.waq else s.waq.map fun e => { e with beforeHold := true })
    (hc : u.captures = s.captures) : u.capturesGranted := by
  rw [State.capturesGranted, hw, hc]
  refine hg.imp_right fun h e he => ?_
  split at he
  case isTrue => exact h e he
  case isFalse =>
    obtain ⟨x, hx, rfl⟩ := List.mem_map.mp he
    exact h x hx

theorem exec_verify (hr : s.resetPhase = .running) (hc : s.mailbox.cmd = 0) :
    exec .verify s = .next (s.begun 0x08).verifyJournal :=
  runCommand_free hr hc _ _

/-- The scan VERIFY starts with (R135). -/
def Journal.newScan (j : Journal) : Scan := ⟨j.tail, j.written, j.tail, 0, 0, 0, 0, 0, ⟨.idle, .idle⟩⟩

/-- The state in which VERIFY holds the slot (R135). -/
def State.verifying (s : State) : State :=
  { s with ops := { s.ops with slot := some ⟨.verify, .command, .scan, ⟨false, false, false⟩, true, false⟩ } }

theorem State.startScan_eq (s : State) : s.startScan = s.verifying.scanFrom s.journal.newScan :=
  (State.scanOn_eq _ _).trans (congrArg _ (Scan.skipTo_of_le (Nat.le_refl _)))

/-- Before the scan end the reads of the next record are asked for (R136). -/
theorem State.scanFrom_begins (h : sc.position < sc.scanEnd) :
    s.scanFrom sc = { s with
      scan := some { sc with current := ⟨.asking 1, .asking 1⟩ }
      mport :=
        { s.mport with
          waiting := s.mport.waiting ++
            [⟨.verifyImage, .read, s.journal.imageAddr sc.position, 64, 0, 0, s.mport.ageClock⟩,
              ⟨.verifyHeader, .read, s.journal.headerAddr sc.position, 64, 0, 0, s.mport.ageClock⟩] } } := by
  rw [State.scanFrom, if_neg (not_le.mpr h)]
  simp only [State.joinRecordReads, State.joinLineRead, State.join, List.append_assoc]
  rfl

/-- A step in which the scan reached its end (R91, R139). -/
theorem State.completeScan_closeStep (hg : s.capturesGranted) (hm : s.epoch.mode = .journaling) (sc : Scan) :
    ∃ t : State, (s.completeScan sc).closeStep = t ∧
      SlotFreed s t s.ops.owed s.gate s.timer.countdown false ∧
      t = { s with
        scan := none
        ops := { t.ops with abortPending := false }
        gate := t.gate
        timer := t.timer
        waq := if t.ops.slot = none then s.waq else s.waq.map fun e => { e with beforeHold := true }
        mailbox := s.mailbox.completed true .done .none (scanFields sc)
        events := s.events.offers s.epoch.counter
          [⟨.verifyDone, 0, s.epoch.counter, BitVec.ofNat 64 sc.firstBad, min sc.bad 65535⟩,
            doneReport s.epoch.counter s.mailbox.cmd .done .none]
        mport := { s.mport with ageClock := s.mport.ageClock + 1 } } := by
  obtain ⟨hfreed, heq⟩ := s.completeScan_frees hm sc
  have hg' : (s.completeScan sc).capturesGranted :=
    State.capturesGranted_marked hg (by rw [heq]) (by rw [heq])
  refine ⟨_, rfl, ?_⟩
  rw [State.closeStep_of_capturesGranted hg']
  refine ⟨hfreed, ?_⟩
  generalize hu : s.completeScan sc = u at heq ⊢
  rw [heq]

/-- Settles O47: by the mode and the slot; with an empty journal the scan completes as it starts
(`State.completeScan_closeStep`). -/
theorem theVerifyCommand : Obligations.TheVerifyCommand := by
  intro s hr hc
  rw [exec_verify hr hc]
  refine ⟨fun hm => ?_, fun hm hs => ?_, fun hm hs hg => ?_⟩
  · rw [← State.begun_reject]
    cases h : s.epoch.mode with
    | passthrough => simp only [State.verifyJournal, State.begun_epoch, h]
    | journaling => exact absurd h hm
    | broken => simp only [State.verifyJournal, State.begun_epoch, h]
  · obtain ⟨sl, hsl⟩ := Option.ne_none_iff_exists'.mp hs
    simp only [State.verifyJournal, State.begun_epoch, State.begun_ops, hm, hsl, State.begun_busy]
  · simp only [State.verifyJournal, State.begun_epoch, State.begun_ops, hm, hs, State.startScan_eq]
    refine ⟨fun hlt => ?_, fun heq => ?_⟩
    · rw [State.scanFrom_begins (s := (s.begun 0x08).verifying) hlt, State.closeStep_same (s := s) hg]
      all_goals rfl
    · have hend : ((s.begun 0x08).verifying.scanFrom s.journal.newScan) =
          (s.begun 0x08).verifying.completeScan s.journal.newScan := if_pos (Nat.le_of_eq heq.symm)
      obtain ⟨t, ht, hfreed, hframe⟩ :=
        State.completeScan_closeStep (s := (s.begun 0x08).verifying) hg hm s.journal.newScan
      refine ⟨t, congrArg _ ((congrArg _ hend).trans ht), hfreed.congr rfl rfl rfl rfl rfl rfl, ?_⟩
      have hscan : s.journal.newScan =
          ⟨s.journal.tail, s.journal.tail, s.journal.tail, 0, 0, 0, 0, 0, ⟨.idle, .idle⟩⟩ := by
        rw [Journal.newScan, ← heq]
      rw [hframe, hscan]
      rfl

theorem State.ownerActs_verify {q : Request} (h : q.owner = verifyOwner line) (a : MemAnswer) :
    s.ownerActs q a = s.verifyRead line a := by
  cases line <;> simp only [State.ownerActs, h, verifyOwner]

theorem scanNext_scanEnd (sc : Scan) (tail : Nat) (bad unreadable : Bool) :
    (scanNext sc tail bad unreadable).scanEnd = sc.scanEnd := by
  unfold scanNext
  split <;> rfl

/-- The scan's counts are those of a record whose reads are forgotten. -/
theorem scanNext_current (sc : Scan) (c : ReadPair) (tail : Nat) (bad unreadable : Bool) :
    scanNext { sc with current := c } tail bad unreadable =
      { scanNext sc tail bad unreadable with current := c } := by
  unfold scanNext
  split <;> rfl

/-- The state in which a record was taken (R136, R138). -/
def State.scanned (s : State) (sc : Scan) (bad : Bool) : State :=
  { s with
    scan := some sc
    epoch := { s.epoch with table := scannedTable s.journal.tail sc.position bad s.epoch.table } }

/-- The end of the second read takes the record, and the scan goes on (R136, R138). -/
theorem State.verifyRead_takes {bad : Bool} (hs : s.scan = some sc) (h : sc.current.endsBoth line a image header)
    (hb : bad = (image.isNone || header.isNone ||
      !recordPasses sc.position (s.expectedEpoch sc.position) (image.getD 0) (lineHeader (header.getD 0)))) :
    s.verifyRead line a =
      (s.scanned { sc with current := ⟨endedWith image, endedWith header⟩ } bad).scanFrom
        { scanNext sc s.journal.tail bad (image.isNone || header.isNone) with
          current := ⟨endedWith image, endedWith header⟩ } := by
  have hverdict := s.scanVerdict_endedWith sc image header
  rw [← hb] at hverdict
  rw [State.verifyRead_last hs h, ← scanNext_current]
  exact State.takeScanned_endedWith
    (s := { s with scan := some { sc with current := ⟨endedWith image, endedWith header⟩ } }) hverdict

/-- Settles O48: by what the answer makes of the pair of reads, and by where the scan goes on from
(`State.scanFrom`). -/
theorem theScanTakesARecord : Obligations.TheScanTakesARecord := by
  intro s ident q sc line a c withheld hr ho hends hown hs hm hg
  have hown' : q.owner = verifyOwner line := by
    cases line <;> exact hown
  rw [exec_of_ends hends hr ho, State.ownerActs_verify hown']
  refine ⟨fun n h => ?_, fun ended h => ?_, fun image header bad next table hboth hb hn ht => ?_⟩
  · rw [State.verifyRead_again (s := s.afterEnd ident withheld) hs h, State.closeStep_same hg, ← hown']
    all_goals rfl
  · rw [State.verifyRead_first (s := s.afterEnd ident withheld) hs h, State.closeStep_same hg]
    all_goals rfl
  · have htail : (s.afterEnd ident withheld).journal.tail = s.journal.tail := rfl
    rw [State.verifyRead_takes (s := s.afterEnd ident withheld) hs hboth hb, htail, ← hn, ht]
    have hend : next.scanEnd = sc.scanEnd := by
      rw [hn]
      exact scanNext_scanEnd _ _ _ _
    rw [← hend]
    refine ⟨fun hlt => ?_, fun hle => ?_⟩
    · rw [State.scanFrom_begins (sc := { next with current := ⟨endedWith image, endedWith header⟩ }) hlt,
        State.closeStep_same (s := s) hg]
      all_goals rfl
    · rw [State.scanFrom, if_pos (c := next.scanEnd ≤ next.position) hle]
      obtain ⟨t, htaken, hfreed, hframe⟩ := State.completeScan_closeStep
        (s := (s.afterEnd ident withheld).scanned { sc with current := ⟨endedWith image, endedWith header⟩ } bad)
        hg hm { next with current := ⟨endedWith image, endedWith header⟩ }
      exact ⟨t, congrArg _ htaken, hfreed.congr rfl rfl rfl rfl rfl rfl, hframe⟩

end

end Sys2Proof.Machine
end


section
/-! PROOFS. What decisions and grants leave of the WAQ, the Capture Buffer and the waiting set, and the end of a
rollback that has not failed its walk. -/
namespace Sys2Proof.Machine
set_option Elab.async false

section
variable {s t u : State} {sl : Slot}

/-! ### Decisions and grants -/

/-- From `s` to `u` entries were decided, refused and granted alone: no transaction entered the WAQ or was parked,
and the Capture Buffer and the waiting set grew at their ends. -/
structure State.Goes (s u : State) : Prop where
  txns : ∀ x ∈ u.waq, ∃ y ∈ s.waq, x.txn = y.txn ∧ (x.state = .parked → y.state = .parked)
  captures : ∃ more, u.captures = s.captures ++ more
  waiting : ∃ more, u.mport.waiting = s.mport.waiting ++ more

theorem State.Goes.of_eq (hw : u.waq = s.waq) (hc : u.captures = s.captures)
    (hm : u.mport.waiting = s.mport.waiting) : s.Goes u :=
  ⟨fun x hx => ⟨x, hw ▸ hx, rfl, id⟩, ⟨[], by simp [hc]⟩, ⟨[], by simp [hm]⟩⟩

theorem State.Goes.refl (s : State) : s.Goes s := .of_eq rfl rfl rfl

theorem State.Goes.trans {v : State} (h : s.Goes u) (h' : u.Goes v) : s.Goes v := by
  obtain ⟨ht, ⟨c, hc⟩, m, hm⟩ := h
  obtain ⟨ht', ⟨c', hc'⟩, m', hm'⟩ := h'
  refine ⟨fun x hx => ?_, ⟨c ++ c', by rw [hc', hc, List.append_assoc]⟩,
    ⟨m ++ m', by rw [hm', hm, List.append_assoc]⟩⟩
  obtain ⟨y, hy, hxy, hp⟩ := ht' x hx
  obtain ⟨z, hz, hyz, hq⟩ := ht y hy
  exact ⟨z, hz, hxy.trans hyz, hq ∘ hp⟩

/-- A change of entries' states that parks none. -/
theorem State.Goes.of_map {f : WaqEntry → WaqEntry} (hw : u.waq = s.waq.map f) (ht : ∀ x, (f x).txn = x.txn)
    (hp : ∀ x, (f x).state = .parked → x.state = .parked) (hc : u.captures = s.captures)
    (hm : u.mport.waiting = s.mport.waiting) : s.Goes u := by
  refine ⟨fun x hx => ?_, ⟨[], by simp [hc]⟩, [], by simp [hm]⟩
  obtain ⟨y, hy, rfl⟩ := List.mem_map.mp (hw ▸ hx)
  exact ⟨y, hy, ht y, hp y⟩

/-- A seal may have begun a hold (R48). -/
theorem State.Goes.of_marked {p : Prop} [Decidable p]
    (hw : u.waq = if p then s.waq else s.waq.map fun e => { e with beforeHold := true })
    (hc : u.captures = s.captures) (hm : u.mport.waiting = s.mport.waiting) : s.Goes u := by
  split at hw
  case isTrue => exact .of_eq hw hc hm
  case isFalse => exact .of_map hw (fun _ => rfl) (fun _ => id) hc hm

/-- No entry is PARKED any more once none is. -/
theorem State.Goes.noneParked (h : s.Goes u) (hs : ∀ y ∈ s.waq, y.state ≠ .parked) :
    ∀ x ∈ u.waq, x.state ≠ .parked := by
  intro x hx hp
  obtain ⟨y, hy, -, hq⟩ := h.txns x hx
  exact hs y hy (hq hp)

theorem State.settleHead_goes (s : State) (e : WaqEntry) : s.Goes (s.settleHead e) := by
  obtain ⟨-, more, hm, -⟩ := s.settleHead_joins e
  obtain ⟨w, m, a, v, hframe⟩ := s.settleHead_frame e
  refine ⟨fun x hx => ?_, ⟨[], by rw [hframe, List.append_nil]⟩, more, hm⟩
  rcases s.settleHead_waq e with hw | ⟨st, hst, hw⟩ <;> rw [hw] at hx
  · exact ⟨x, List.mem_of_mem_filter hx, rfl, id⟩
  · obtain ⟨y, hy, rfl⟩ := List.mem_map.mp hx
    split
    · exact ⟨y, hy, rfl, fun hp => by rcases hst with rfl | rfl <;> exact nomatch hp⟩
    · exact ⟨y, hy, rfl, id⟩

theorem State.advance_goes (s : State) : s.Goes s.advance :=
  State.advance_induction (P := s.Goes) (fun u e h _ _ => h.trans (u.settleHead_goes e)) (.refl s)

theorem State.grantCapture_goes (s : State) (t : Transaction) : s.Goes (s.grantCapture t) := by
  refine ⟨fun x hx => ?_, ⟨_, rfl⟩, ⟨_, rfl⟩⟩
  obtain ⟨y, hy, rfl⟩ := List.mem_map.mp (show x ∈ setState s.waq t.requester t.tag .capturing from hx)
  split
  · exact ⟨y, hy, rfl, nofun⟩
  · exact ⟨y, hy, rfl, id⟩

theorem State.closeStep_goes (s : State) : s.Goes s.closeStep :=
  have hgrants : s.Goes s.grantCaptures :=
    State.grantCaptures_induction (P := s.Goes) (fun u e h _ _ => h.trans (u.grantCapture_goes e.txn)) (.refl s)
  hgrants.trans (.of_eq rfl rfl rfl)

/-- Every entry leaves PARKED as a hold opens (R48). -/
theorem State.openHold_goes (s : State) : s.Goes s.openHold ∧ ∀ x ∈ s.openHold.waq, x.state ≠ .parked := by
  have hmap : s.Goes { s with
      gate := { s.gate with state := .pass }
      waq := s.waq.map fun e => if e.state = .parked then { e with state := .waiting } else e } :=
    .of_map rfl (fun x => by split <;> rfl) (fun x hx => by
      split at hx
      · exact nomatch hx
      · exact hx) rfl rfl
  refine ⟨hmap.trans (State.advance_goes _), (State.advance_goes _).noneParked fun y hy => ?_⟩
  obtain ⟨z, -, rfl⟩ := List.mem_map.mp hy
  split
  · exact nofun
  · assumption

theorem State.endHold_goes (s : State) (sl : Slot) : s.Goes (s.endHold sl) := by
  unfold State.endHold
  split
  · exact s.openHold_goes.1
  · exact .refl s

/-- A SEAL or STOP that gives its hold back leaves none PARKED (R48). -/
theorem State.endHold_noneParked (hm : sl.moved = true) (hg : s.gate.state = .holdTracked) :
    ∀ x ∈ (s.endHold sl).waq, x.state ≠ .parked := by
  rw [State.endHold, if_pos ⟨hm, hg⟩]
  exact s.openHold_goes.2

theorem State.endRollbackGate_goes (s : State) (sl : Slot) : s.Goes (s.endRollbackGate sl) := by
  unfold State.endRollbackGate
  split
  · exact .of_eq rfl rfl rfl
  · split
    · exact s.openHold_goes.1
    · exact .refl s

/-- A command rollback that gives its hold back leaves none PARKED (R48). -/
theorem State.endRollbackGate_noneParked (hsrc : sl.source ≠ .fault) (hm : sl.moved = true)
    (hg : s.gate.state = .holdAll) : ∀ x ∈ (s.endRollbackGate sl).waq, x.state ≠ .parked := by
  rw [State.endRollbackGate, if_neg hsrc, if_pos ⟨hm, hg⟩]
  exact s.openHold_goes.2

/-! ### The end of a rollback -/

theorem State.endRollbackGate_frame (s : State) (sl : Slot) :
    ∃ waq waiting answers events, s.endRollbackGate sl =
      { s with
        gate := gateAfterRollback s sl
        waq := waq
        mport := { s.mport with waiting := waiting }
        answers := answers
        events := events } := by
  rw [← State.endRollbackGate_gate]
  unfold State.endRollbackGate
  split
  · exact ⟨_, _, _, _, rfl⟩
  · split
    · obtain ⟨w, m, a, v, h⟩ := s.openHold_frame
      exact ⟨w, m, a, v, by rw [h]⟩
    · exact ⟨_, _, _, _, rfl⟩

/-- The fence opens as the rollback leaves the slot in the cases of R52. -/
theorem gateAfterRollback_leaveOpens (h : t.gate = gateAfterRollback s sl) (hf : t.faultLevel = s.faultLevel) :
    t.leaveOpens = opensAtLeave s sl ∧ (opensAtLeave s sl = true → t.gate.armed = s.gate.armed) := by
  unfold State.leaveOpens opensAtLeave
  rw [h, hf]
  unfold gateAfterRollback
  by_cases hsrc : sl.source = .fault
  · simp [hsrc]
  · have hne : (sl.source != .fault) = true := bne_iff_ne.mpr hsrc
    by_cases hm : sl.moved = true ∧ s.gate.state = .holdAll
    · have hpass : (GateState.pass == .fence) = false := rfl
      have hhold : (GateState.holdAll == .fence) = false := rfl
      simp [hsrc, hm.1, hm.2, hpass, hhold]
    · simp [hsrc, hm, hne]

/-- The rollback has ended, with this countdown, record, mailbox, queue and abort pending, and is about to leave
the slot (R119, R120, R128). -/
def State.rollbackEnded (s : State) (sl : Slot) (c : Countdown) (rec : LastRecovery) (mailbox : Mailbox)
    (events : Events) (abortPending : Bool) : State :=
  { s.endRollbackGate sl with
    timer := { s.timer with countdown := c }
    recovery := rec
    mailbox := mailbox
    events := events
    ops := { s.ops with abortPending := abortPending } }

/-- A step in which a rollback ended that had not failed its walk (R52, R91, R119, R120, R128). -/
theorem State.rollbackEnded_leaves (hm : s.epoch.mode = .journaling) (c : Countdown) (rec : LastRecovery)
    (mailbox : Mailbox) (events : Events) (abortPending : Bool) :
    ∃ t : State, (s.rollbackEnded sl c rec mailbox events abortPending).leaveRollback.closeStep = t ∧
      SlotFreed s t s.ops.owed (gateAfterRollback s sl) c (opensAtLeave s sl) ∧
      t.ops.abortPending = abortPending ∧ s.Goes t ∧ (∃ answers, t.answers = s.answers ++ answers) ∧
      (sl.source ≠ .fault → sl.moved = true → s.gate.state = .holdAll → ∀ x ∈ t.waq, x.state ≠ .parked) ∧
      t = { s with
        engine := none
        ops := t.ops
        gate := t.gate
        timer := t.timer
        recovery := rec
        mailbox := mailbox
        events := events.offers s.epoch.counter (openingReports s sl s.epoch.counter)
        answers := t.answers
        waq := t.waq
        captures := t.captures
        mport := { s.mport with waiting := t.mport.waiting, ageClock := s.mport.ageClock + 1 } } := by
  obtain ⟨w, m, a, v, hgate⟩ := s.endRollbackGate_frame sl
  generalize hx : s.rollbackEnded sl c rec mailbox events abortPending = x
  have hxe : x = { s with
      gate := gateAfterRollback s sl, waq := w, mport := { s.mport with waiting := m }, answers := a
      timer := { s.timer with countdown := c }, recovery := rec, mailbox := mailbox, events := events
      ops := { s.ops with abortPending := abortPending } } := by
    rw [← hx, State.rollbackEnded, hgate]
  have hxm : x.epoch.mode = .journaling := by rw [hxe]; exact hm
  obtain ⟨hfreed, hframe⟩ := State.leaveRollback_frees hxm
  obtain ⟨hopens, harmed⟩ := gateAfterRollback_leaveOpens (s := s) (t := x) (sl := sl) (by rw [hxe]) (by rw [hxe])
  have hreports : (if x.leaveOpens then [gateReleased x.epoch.counter x.gate.armed] else []) =
      openingReports s sl s.epoch.counter := by
    have hcounter : x.epoch.counter = s.epoch.counter := by rw [hxe]
    rw [openingReports, hopens, hcounter]
    split
    case isTrue ho => rw [harmed ho]
    case isFalse => rfl
  obtain ⟨w', c', m', hclose⟩ := x.leaveRollback.closeStep_frame
  have hgoes : s.Goes x := by
    refine (s.endRollbackGate_goes sl).trans (.of_eq ?_ ?_ ?_) <;> rw [← hx] <;> rfl
  have hleft : x.Goes x.leaveRollback := .of_marked (by rw [hframe]) (by rw [hframe]) (by rw [hframe])
  refine ⟨_, rfl, ?_, ?_, (hgoes.trans hleft).trans (State.closeStep_goes _), ?_, fun hsrc hmoved hg => ?_, ?_⟩
  · have howed : x.ops.owed = s.ops.owed := by rw [hxe]
    have hcount : x.timer.countdown = c := by rw [hxe]
    have hxg : x.gate = gateAfterRollback s sl := by rw [hxe]
    rw [hopens, howed, hcount, hxg] at hfreed
    refine hfreed.congr ?_ ?_ ?_ ?_ ?_ ?_
    · rw [hxe]
    · rw [hxe]
    all_goals rw [hclose]
  · rw [hclose, hframe, hxe]
  · obtain ⟨l, ha, -⟩ := s.endRollbackGate_refuses sl
    rw [hclose, hframe, hxe]
    rw [hgate] at ha
    exact ⟨_, ha⟩
  · refine (hleft.trans (State.closeStep_goes _)).noneParked ?_
    rw [← hx]
    exact State.endRollbackGate_noneParked hsrc hmoved hg
  · rw [hclose, hframe, hreports, hxe]

/-- The failure in DRAIN, from the gate's end on (R119). -/
theorem State.failDrain_eq (s : State) (sl : Slot) (w : Walk) :
    s.failDrain sl w =
      (s.rollbackEnded sl s.timer.countdown.resume
        { s.recovery with outcome := .failedNoCheckpoint, phase := .drain }
        (s.mailbox.completed sl.command .failed .targetLost
          (recoveryFields { s.recovery with outcome := .failedNoCheckpoint, phase := .drain }))
        ((s.endRollbackGate sl).events.offers s.epoch.counter
          (⟨.rollbackFailed, 0, w.targetEpoch, 0, 3⟩ :: completionOf s sl s.epoch.counter .failed .targetLost))
        (if sl.command then false else s.ops.abortPending)).leaveRollback := by
  obtain ⟨waq, m, a, v, hgate⟩ := s.endRollbackGate_frame sl
  unfold State.failDrain State.rollbackEnded
  simp only [State.completeIf_eq]
  rw [hgate]
  rfl

/-- What a failure in DRAIN leaves (R119). -/
theorem State.failDrain_drainFailed (hm : s.epoch.mode = .journaling) (sl : Slot) (w : Walk) :
    DrainFailed s (s.failDrain sl w).closeStep sl w := by
  rw [State.failDrain_eq]
  obtain ⟨l, ha, he⟩ := s.endRollbackGate_refuses sl
  obtain ⟨t, ht, hfreed, habort, hgoes, hanswers, hparked, hframe⟩ := State.rollbackEnded_leaves (sl := sl) hm
    s.timer.countdown.resume
    { s.recovery with outcome := .failedNoCheckpoint, phase := .drain }
    (s.mailbox.completed sl.command .failed .targetLost
      (recoveryFields { s.recovery with outcome := .failedNoCheckpoint, phase := .drain }))
    ((s.endRollbackGate sl).events.offers s.epoch.counter
      (⟨.rollbackFailed, 0, w.targetEpoch, 0, 3⟩ :: completionOf s sl s.epoch.counter .failed .targetLost))
    (if sl.command then false else s.ops.abortPending)
  rw [ht]
  have hevents : t.events = s.events.offers s.epoch.counter
      (l.map (writeRefusal s.epoch.counter) ++ ⟨.rollbackFailed, 0, w.targetEpoch, 0, 3⟩ ::
        completionOf s sl s.epoch.counter .failed .targetLost ++ openingReports s sl s.epoch.counter) := by
    rw [hframe, he, ← Events.offers_append, ← Events.offers_append, List.append_assoc]
  refine ⟨hfreed, habort, ?_, ⟨_, by simp, hevents⟩, hanswers, ?_, ?_, hparked,
    fun x hx => ?_, hgoes.captures, hgoes.waiting, ?_⟩
  · rw [hframe]
  · rw [hframe]
  · rw [hframe]
  · obtain ⟨y, hy, hxy, -⟩ := hgoes.txns x hx
    exact ⟨y, hy, hxy⟩
  · rw [hframe]
    exact ⟨rfl, rfl, rfl, rfl, rfl, rfl, rfl, rfl, rfl, rfl, rfl, rfl, rfl, rfl⟩

/-! ### The target of a rollback in DRAIN -/

theorem State.checkTarget_fails {w : Walk} (hs : s.ops.slot = some sl) (he : s.engine = some w)
    (ho : sl.operation = .rollback) (hp : sl.phase = .drain)
    (ht : targetHolds w.targetEpoch s.epoch.table = false) : s.checkTarget = s.failDrain sl w := by
  simp only [State.checkTarget, hs, he, ho, hp, ht, and_self, if_true]

theorem State.checkTarget_goesOn
    (h : ∀ sl w, s.ops.slot = some sl → s.engine = some w → sl.operation = .rollback → sl.phase = .drain →
      targetHolds w.targetEpoch s.epoch.table = true) : s.checkTarget = s := by
  rcases s.checkTarget_cases with hc | ⟨sl, w, hs, hw, ho, hp, ht, -⟩
  · exact hc
  · exact nomatch (h sl w hs hw ho hp).symm.trans ht

/-- The examination of the target, after an allocation that leaves nothing to grant (R118, R119). -/
theorem State.targetChecked_aged (hg : s.capturesGranted) : TargetChecked s.aged s.checkTarget.closeStep := by
  refine ⟨fun h => ?_, fun sl w hs hw ho hp ht hm => ?_⟩
  · rw [State.checkTarget_goesOn (s := s) h, State.closeStep_of_capturesGranted hg]
    rfl
  · rw [State.checkTarget_fails (s := s) hs hw ho hp ht]
    exact State.failDrain_drainFailed (s := s) hm sl w

end

end Sys2Proof.Machine
end


section
/-! PROOFS. Allocations under pressure: the drops, the reserve and the full journal. -/
namespace Sys2Proof.Machine
set_option Elab.async false

section
variable {s dropped : State} {ident : BitVec 8} {e : WaqEntry} {gone rest : List Checkpoint} {d : Checkpoint}

/-! ### A seal request while a request's slot frees -/

/-- Abandoning a request and the end of another do not meet (R153). -/
theorem State.freeRequest_abandon (s : State) (ident : BitVec 8) (o : Owner) :
    (s.freeRequest ident).abandon o = (s.abandon o).freeRequest ident := by
  have hmap : (s.mport.outstanding.filter fun x => x.ident != ident).map (fun x =>
      if x.request.owner = o then { x with request := { x.request with owner := .abandoned } } else x) =
      (s.mport.outstanding.map fun x =>
        if x.request.owner = o then { x with request := { x.request with owner := .abandoned } } else x).filter
        fun x => x.ident != ident := by
    rw [List.filter_map]
    refine congrArg _ (List.filter_congr fun x _ => ?_)
    simp only [Function.comp_apply]
    split <;> rfl
  unfold State.abandon State.freeRequest
  simp only [hmap]

theorem State.freeRequest_stopScan (s : State) (ident : BitVec 8) (res : CommandResult) :
    (s.freeRequest ident).stopScan res = (s.stopScan res).freeRequest ident := by
  unfold State.stopScan
  rw [State.freeRequest_abandon, State.freeRequest_abandon]
  cases h : s.scan with
  | none => simp only [State.freeRequest, h]
  | some sc =>
    simp only [State.freeRequest, h]
    rfl

/-- An automatic seal request and the end of another request do not meet (R83, R85). -/
theorem State.freeRequest_requestSeal (s : State) (ident : BitVec 8) (src : Source) :
    (s.freeRequest ident).requestSeal src = (s.requestSeal src).freeRequest ident := by
  by_cases hm : s.epoch.mode = .journaling
  · cases hs : s.ops.slot with
    | none =>
      rw [State.requestSeal_idle hm hs, State.requestSeal_idle (s := s.freeRequest ident) hm hs]
      rfl
    | some sl =>
      rw [State.requestSeal_busy hm hs, State.requestSeal_busy (s := s.freeRequest ident) hm hs]
      cases sl.operation with
      | verify =>
        simp only [State.freeRequest_stopScan]
        rfl
      | _ => rfl
  · rw [State.requestSeal_outside hm, State.requestSeal_outside (s := s.freeRequest ident) hm]

/-- A seal request leaves the WAQ, but for the mark of a hold that begins (R48). -/
theorem State.requestSeal_waq (s : State) (src : Source) :
    (s.requestSeal src).waq = s.waq ∨
      (s.requestSeal src).waq = s.waq.map fun x => { x with beforeHold := true } := by
  by_cases hm : s.epoch.mode = .journaling
  · cases hs : s.ops.slot with
    | none =>
      rw [State.requestSeal_idle hm hs]
      exact .inr rfl
    | some sl =>
      rw [State.requestSeal_busy hm hs]
      cases sl.operation with
      | verify =>
        refine .inr ?_
        have hstop : (s.stopScan .preempted).waq = s.waq := by simp
        rw [← hstop]
        rfl
      | _ => exact .inl rfl
  · rw [State.requestSeal_outside hm]
    exact .inl rfl

theorem State.requestSeal_capturesGranted (hg : s.capturesGranted) (src : Source) :
    (s.requestSeal src).capturesGranted := by
  have hc : (s.requestSeal src).captures = s.captures := by simp
  rcases s.requestSeal_waq src with hw | hw
  · rwa [State.capturesGranted, hw, hc]
  · exact State.capturesGranted_marked (p := False) hg (by simpa using hw) hc

/-! ### The drops -/

/-- A capture read of an unmarked write ends in the allocation (R73). -/
theorem State.captureRead_allocates (hx : s.waqEntry e.txn.requester e.txn.tag = some e) (hm : e.marked = false)
    (image : Line) :
    s.captureRead e.txn.requester e.txn.tag (.okay image) = (s.allocate e.txn image).checkTarget := by
  unfold State.captureRead
  rw [hx]
  simp [hm]

/-- A relieved allocation is made (R26, R31). -/
theorem State.allocate_relieved {u : State} {t : Transaction} (hu : s.relieve t.requester = u)
    (hp : ¬u.pressedAt u.journal.tail) (image : Line) : s.allocate t image = u.place t image := by
  have hp' : u.journal.underPressure = false := Bool.eq_false_iff.mpr fun h => hp (u.underPressure_iff.mp h)
  simp only [State.allocate, hu, hp', Bool.false_eq_true, if_false]

/-- Settles O16: the drops are made at once (`State.relieve_eq`), the record is placed, and the target is
examined (`State.targetChecked_aged`). -/
theorem pressureDropsTheOldestCheckpoint : Obligations.PressureDropsTheOldestCheckpoint := by
  intro s dropped ident r e image gone d rest hr ho hown hx hm hk htable hne hcommitted hfirst hrest hlast hd hholds
    hg
  subst hd
  have hdrops : (s.freeRequest ident).relieve e.txn.requester =
      (s.afterDrops e.txn.requester gone d rest).freeRequest ident :=
    State.relieve_eq (s := s.freeRequest ident) e.txn.requester htable hcommitted (fun _ => hfirst) hrest
      (.inl (by rw [if_neg hne]; exact hlast))
  have hplace := State.allocate_relieved (t := e.txn) hdrops (by
    have htail : ((s.afterDrops e.txn.requester gone d rest).freeRequest ident).journal.tail = d.start := if_neg hne
    rw [htail]
    exact hlast) image
  obtain ⟨hallocated, hframe⟩ := State.place_allocated (s := s.afterDrops e.txn.requester gone d rest) hk
    hholds ident image
  refine ⟨_, _, ?_, hallocated, hframe, State.targetChecked_aged (State.place_capturesGranted hg)⟩
  rw [exec_answer hr ho, State.ownerActs_capture hown, State.captureRead_allocates (s := s.freeRequest ident) hx hm,
    hplace]

/-! ### The reserve and the full journal -/

/-- Still under pressure with the drops made, the allocation asks for a seal, and is made in the reserve or refused
(R31, R33, R74). -/
theorem State.allocate_pressed {u : State} {t : Transaction} (hu : s.relieve t.requester = u)
    (hp : u.pressedAt u.journal.tail) (image : Line) :
    s.allocate t image =
      if u.journal.head - u.journal.tail < u.journal.capacity then (u.requestSeal .pressure).place t image
      else (u.requestSeal .pressure).endCapture t .journalFull := by
  have hp' : u.journal.underPressure = true := u.underPressure_iff.mpr hp
  have hj : (u.requestSeal .pressure).journal = u.journal := by simp
  simp only [State.allocate, hu, hp', hj, if_true]
  rfl

/-- The entries of `gone` are dropped and `d` is left alone, still under pressure (R31, R32). -/
theorem State.relieve_pressed (htable : s.epoch.table = gone ++ [d]) (hcommitted : ∀ c ∈ gone, c.state = .committed)
    (hfirst : s.pressedAt s.journal.tail) (hrest : ∀ c ∈ (gone ++ [d]).tail, s.pressedAt c.start) (q : BitVec 4) :
    s.relieve q = s.afterDrops q gone d [] ∧
      (s.afterDrops q gone d []).pressedAt (s.afterDrops q gone d []).journal.tail := by
  refine ⟨State.relieve_eq q htable hcommitted (fun _ => hfirst) (fun c hc => hrest c ?_) (.inr rfl), ?_⟩
  · cases gone with
    | nil => exact nomatch hc
    | cons x xs => exact List.mem_append_left _ hc
  · by_cases hgone : gone = []
    · have htail : (s.afterDrops q gone d []).journal.tail = s.journal.tail := if_pos hgone
      rw [htail]
      exact hfirst
    · have htail : (s.afterDrops q gone d []).journal.tail = d.start := if_neg hgone
      rw [htail]
      refine hrest d ?_
      rw [List.tail_append_of_ne_nil hgone]
      exact List.mem_append_right _ (List.mem_singleton_self d)

/-- `a` is left by an allocation that a full journal refused, in the state `u` and with the answer of the request
`ident` (R33, R74). -/
structure RefusedFull (u a : State) (ident : BitVec 8) (t : Transaction) (answers : List Answer)
    (reports : List Report) : Prop where
  beside : u.sameBeside a
  answers_eq : a.answers = u.answers ++ ⟨t.requester, t.tag, .error⟩ :: answers
  events_eq : a.events = u.events.offers u.epoch.counter
    (⟨.journalFull, t.requester, u.epoch.counter, t.line.setWidth 64, 1⟩ :: reports)
  unread : a.Unread t.requester t.tag u.captures
  heads : a.headsDecided
  outstanding : a.mport.outstanding = u.mport.outstanding.filter fun o => o.ident != ident

/-- The grants that end the step leave the refusal as it is. -/
theorem RefusedFull.closeStep {u a : State} {t : Transaction} {answers : List Answer} {reports : List Report}
    (h : RefusedFull u a ident t answers reports) : RefusedFull u a.closeStep ident t answers reports := by
  obtain ⟨hb, ha, he, hu, hd, ho⟩ := h
  obtain ⟨w, c, m, hclose⟩ := a.closeStep_frame
  refine ⟨?_, by rw [hclose]; exact ha, by rw [hclose]; exact he, State.Unread.grantCaptures hu,
    State.closeStep_headsDecided hd, by rw [hclose]; exact ho⟩
  rw [State.sameBeside, hclose, hb]

theorem State.endCapture_refusedFull (u : State) (ident : BitVec 8) (t : Transaction) :
    ∃ l : List Transaction, RefusedFull u ((u.freeRequest ident).endCapture t .journalFull) ident t (l.map errorAnswer)
      (l.map (writeRefusal u.epoch.counter)) := by
  obtain ⟨l, -, hans, hev⟩ := (u.freeRequest ident).endCapture_refuses t .journalFull
  obtain ⟨w, c, m, a, v, hframe⟩ := (u.freeRequest ident).endCapture_frame t .journalFull
  refine ⟨l, ⟨?_, ?_, ?_, (u.freeRequest ident).endCapture_unread t .journalFull, State.advance_headsDecided _, ?_⟩⟩
  · rw [State.sameBeside, hframe]
    rfl
  · simpa using hans
  · simpa using hev
  · rw [hframe]
    rfl

/-- The examination of the target after an allocation that was refused (R118, R119): the step ends there, or the
rollback fails on what the refusal left. -/
theorem State.targetChecked_either (b : State) :
    ∃ a, (a = b ∨ a = b.closeStep) ∧ TargetChecked a b.checkTarget.closeStep := by
  have hkept : b.closeStep.ops = b.ops ∧ b.closeStep.engine = b.engine ∧ b.closeStep.epoch = b.epoch := by simp
  obtain ⟨hops, hengine, hepoch⟩ := hkept
  by_cases h : ∀ sl w, b.ops.slot = some sl → b.engine = some w → sl.operation = .rollback → sl.phase = .drain →
      targetHolds w.targetEpoch b.epoch.table = true
  · refine ⟨b.closeStep, .inr rfl, fun _ => by rw [State.checkTarget_goesOn h], fun sl w hs hw ho hp ht _ => ?_⟩
    rw [hops] at hs
    rw [hengine] at hw
    rw [hepoch, h sl w hs hw ho hp] at ht
    exact nomatch ht
  · refine ⟨b, .inl rfl, fun hgood => absurd hgood h, fun sl w hs hw ho hp ht hm => ?_⟩
    rw [State.checkTarget_fails hs hw ho hp ht]
    exact State.failDrain_drainFailed hm sl w

/-- Settles O17: the drops leave pressure, so a seal is asked for, and the occupancy decides between the
reserve and a refusal. -/
theorem theReserveAndTheFullJournal : Obligations.TheReserveAndTheFullJournal := by
  intro s dropped ident r e image gone d hr ho hown hx hm hk hmode htable hcommitted hfirst hrest hd hscan
  obtain ⟨hdrops, hpressed⟩ := State.relieve_pressed (s := s.freeRequest ident) htable hcommitted hfirst hrest
    e.txn.requester
  have hallocate := State.allocate_pressed hdrops hpressed image
  have hrun : exec (.mPortAnswer ident (.okay image)) s =
      .next ((s.freeRequest ident).allocate e.txn image).checkTarget.closeStep := by
    rw [exec_answer hr ho, State.ownerActs_capture hown, State.captureRead_allocates (s := s.freeRequest ident) hx hm]
  have hfree : (s.freeRequest ident).afterDrops e.txn.requester gone d [] = dropped.freeRequest ident := by
    rw [hd]
    rfl
  have hkept : dropped.journal.head = s.journal.head ∧ dropped.journal.capacity = s.journal.capacity ∧
      dropped.captures = s.captures ∧ dropped.waq = s.waq ∧ dropped.epoch.mode = .journaling ∧
      dropped.epoch.counter = s.epoch.counter ∧ dropped.answers = s.answers := by
    rw [hd]
    exact ⟨rfl, rfl, rfl, rfl, hmode, rfl, rfl⟩
  obtain ⟨hhead, hcapacity, hcaptures, hwaq, hjournaling, hcounter, hanswers⟩ := hkept
  have hask : SealAsked .pressure dropped (dropped.requestSeal .pressure) :=
    State.requestSeal_spec hjournaling (by rw [hd]; exact hscan) .pressure
  rw [hrun, hallocate, hfree, State.freeRequest_requestSeal]
  refine ⟨fun hroom hholds hg => ?_, fun hfull => ?_⟩
  · have hlt : (dropped.freeRequest ident).journal.head - (dropped.freeRequest ident).journal.tail <
        (dropped.freeRequest ident).journal.capacity := by
      simp only [State.freeRequest_journal, hhead, hcapacity]
      exact hroom
    rw [if_pos hlt]
    have hg' : dropped.capturesGranted := by
      rwa [State.capturesGranted, hwaq, hcaptures]
    obtain ⟨hallocated, hframe⟩ := State.place_allocated (s := dropped.requestSeal .pressure) hk
      (by simpa [hcaptures, hhead] using hholds) ident image
    exact ⟨_, _, _, rfl, hask, hallocated, hframe, State.targetChecked_aged
      (State.place_capturesGranted (s := (dropped.requestSeal .pressure).freeRequest ident)
        (State.requestSeal_capturesGranted hg' _))⟩
  · have hge : ¬(dropped.freeRequest ident).journal.head - (dropped.freeRequest ident).journal.tail <
        (dropped.freeRequest ident).journal.capacity := by
      simp only [State.freeRequest_journal, hhead, hcapacity, hfull]
      omega
    rw [if_neg hge]
    obtain ⟨l, hrefused⟩ := (dropped.requestSeal .pressure).endCapture_refusedFull ident e.txn
    obtain ⟨a, ha, hchecked⟩ :=
      (((dropped.requestSeal .pressure).freeRequest ident).endCapture e.txn .journalFull).targetChecked_either
    have hafter : RefusedFull (dropped.requestSeal .pressure) a ident e.txn (l.map errorAnswer)
        (l.map (writeRefusal (dropped.requestSeal .pressure).epoch.counter)) := by
      rcases ha with rfl | rfl
      · exact hrefused
      · exact hrefused.closeStep
    obtain ⟨hbeside, hans, hev, hunread, hheads, hout⟩ := hafter
    have hc : (dropped.requestSeal .pressure).epoch.counter = s.epoch.counter := by simp [hcounter]
    refine ⟨_, a, _, l.map errorAnswer, l.map (writeRefusal s.epoch.counter), rfl, hask, hbeside, ?_, ?_,
      by simp, hunread.1, fun x hx => (hunread.2 x hx).1, hheads, hout,
      hchecked⟩
    · rw [hans]
      simp [hanswers]
    · rw [hev, hc]
      rfl

end

end Sys2Proof.Machine
end


section
/-! PROOFS. ABORT. -/
namespace Sys2Proof.Machine
set_option Elab.async false

section
variable {s : State} {sl : Slot} {sc : Scan}

/-- ABORT has been taken for the running command (R163). -/
def State.abortTaken (s : State) : State :=
  { s with
    i2c := { s.i2c with index := 0x04, pointer := 1 }
    ops := { s.ops with abortPending := true } }

theorem exec_abort_taken (hr : s.resetPhase = .running) (hc : s.mailbox.cmd ≠ 0) (ha : s.ops.abortPending = false) :
    exec .abort s = .next s.abortTaken.honourAbort := by
  have h : exec .abort s = .next (s.select cmdIndex 1).abortWritten :=
    whileRunning_running hr fun s => (s.select cmdIndex 1).abortWritten
  have hcmd : ¬(s.select cmdIndex 1).mailbox.cmd = 0 := hc
  have hpending : ¬(s.select cmdIndex 1).ops.abortPending = true := by
    simpa using ha
  rw [h, State.abortWritten, if_neg hcmd, if_neg hpending]
  rfl

/-- ABORT changes nothing with no command running or abort pending set already (R163). -/
theorem exec_abort_nothing (hr : s.resetPhase = .running) (h : s.mailbox.cmd = 0 ∨ s.ops.abortPending = true) :
    exec .abort s = .next { s with i2c := { s.i2c with index := 0x04, pointer := 1 } } := by
  have hrun : exec .abort s = .next (s.select cmdIndex 1).abortWritten :=
    whileRunning_running hr fun s => (s.select cmdIndex 1).abortWritten
  have hsame : (s.select cmdIndex 1).abortWritten = s.select cmdIndex 1 := by
    unfold State.abortWritten
    rcases h with h | h
    · exact if_pos h
    · split
      · rfl
      · exact if_pos h
  rw [hrun, hsame]
  rfl

/-- The running command holds ABORT (R163). -/
theorem State.honourAbort_held (h : s.ops.slot = none ∨
    (∃ sl, s.ops.slot = some sl ∧
      (sl.command = false ∨ (sl.operation = .seal ∧ sl.source ≠ .command) ∨
        (sl.operation = .rollback ∧ (sl.source = .fault ∨ sl.phase = .restore))))) : s.honourAbort = s := by
  rcases h with h | ⟨sl, hs, h⟩
  · simp only [State.honourAbort, h]
  · simp only [State.honourAbort, hs]
    rcases h with hc | ⟨ho, hsrc⟩ | ⟨ho, hsrc⟩
    · cases sl.operation <;> simp [hc]
    · simp [ho, hsrc]
    · rcases hsrc with hsrc | hp
      · simp [ho, hsrc]
      · simp [ho, hp]

/-! ### ABORT in GATHER -/

/-- The hold has ended, the owed flags hold the joined sources, and the command has completed (R92). -/
def State.gatherAborted (s : State) (sl : Slot) : State :=
  { s.endHold sl with
    timer := { s.timer with countdown := s.timer.countdown.resume }
    ops := { s.ops with owed := s.ops.owed.union sl.joined, abortPending := false }
    mailbox := s.mailbox.completed true .aborted .none (field 4 6 s.epoch.counter)
    events := (s.endHold sl).events.offer s.epoch.counter (doneReport s.epoch.counter s.mailbox.cmd .aborted .none) }

theorem State.abortGather_eq (hc : sl.command = true) : s.abortGather sl = (s.gatherAborted sl).freeSlot := by
  obtain ⟨w, m, a, v, hframe⟩ := s.endHold_frame sl
  unfold State.abortGather State.gatherAborted
  simp only [State.completeIf_eq, hc]
  rw [hframe]
  rfl

/-- What an ABORT honoured in GATHER leaves (R92, R106, R110). -/
theorem State.abortGather_leaves (hm : s.epoch.mode = .journaling) (hc : sl.command = true) :
    ∃ (t : State) (reports : List Report) (answers : List Answer),
      (s.abortGather sl).closeStep = t ∧
      t = { s with
        ops := t.ops, gate := t.gate, timer := t.timer, mailbox := t.mailbox, events := t.events
        answers := t.answers, waq := t.waq, captures := t.captures
        mport := { s.mport with waiting := t.mport.waiting, ageClock := s.mport.ageClock + 1 } } ∧
      (sl.moved = true → s.gate.state = .holdTracked → ∀ e ∈ t.waq, e.state ≠ .parked) ∧
      SlotFreed s t (s.ops.owed.union sl.joined)
        { s.gate with state := if sl.moved ∧ s.gate.state = .holdTracked then .pass else s.gate.state }
        s.timer.countdown.resume false ∧
      t.ops.abortPending = false ∧
      t.events = s.events.offers s.epoch.counter
        (reports ++ [doneReport s.epoch.counter s.mailbox.cmd .aborted .none]) ∧
      (∀ x ∈ reports, x.kind = .writeRefused) ∧ t.answers = s.answers ++ answers ∧
      t.mailbox = s.mailbox.completed true .aborted .none (field 4 6 s.epoch.counter) := by
  obtain ⟨l, ha, he⟩ := s.endHold_refuses sl
  obtain ⟨w, m, a, v, hhold⟩ := s.endHold_frame sl
  generalize hx : s.gatherAborted sl = x
  have hxe : x = { s with
      gate := { s.gate with state := if sl.moved ∧ s.gate.state = .holdTracked then .pass else s.gate.state }
      waq := w, mport := { s.mport with waiting := m }, answers := a
      timer := { s.timer with countdown := s.timer.countdown.resume }
      ops := { s.ops with owed := s.ops.owed.union sl.joined, abortPending := false }
      mailbox := s.mailbox.completed true .aborted .none (field 4 6 s.epoch.counter)
      events := (s.endHold sl).events.offer s.epoch.counter
        (doneReport s.epoch.counter s.mailbox.cmd .aborted .none) } := by
    rw [← hx, State.gatherAborted, hhold]
  have hxm : x.epoch.mode = .journaling := by rw [hxe]; exact hm
  obtain ⟨hfreed, hframe⟩ := State.freeSlot_frees hxm
  obtain ⟨w', c', m', hclose⟩ := x.freeSlot.closeStep_frame
  refine ⟨_, l.map (writeRefusal s.epoch.counter), l.map errorAnswer,
    congrArg _ (by rw [State.abortGather_eq hc, hx]), ?_, fun hmoved hg => ?_, ?_, ?_, ?_, by simp, ?_, ?_⟩
  · rw [hclose, hframe, hxe]
  · have hgoes : x.Goes x.freeSlot := .of_marked (by rw [hframe]) (by rw [hframe]) (by rw [hframe])
    refine (hgoes.trans (State.closeStep_goes _)).noneParked ?_
    rw [← hx]
    exact State.endHold_noneParked hmoved hg
  · have howed : x.ops.owed = s.ops.owed.union sl.joined := by rw [hxe]
    have hcount : x.timer.countdown = s.timer.countdown.resume := by rw [hxe]
    have hxg : x.gate =
        { s.gate with state := if sl.moved ∧ s.gate.state = .holdTracked then .pass else s.gate.state } := by rw [hxe]
    rw [howed, hcount, hxg] at hfreed
    refine hfreed.congr ?_ ?_ ?_ ?_ ?_ ?_
    · rw [hxe]
    · rw [hxe]
    all_goals rw [hclose]
  · rw [hclose, hframe, hxe]
  · rw [hclose, hframe, hxe, Events.offers_append, ← he]
    rfl
  · rw [hclose, hframe, hxe]
    rw [hhold] at ha
    exact ha
  · rw [hclose, hframe, hxe]

/-! ### ABORT in DRAIN -/

theorem State.abortDrain_eq (s : State) (sl : Slot) :
    s.abortDrain sl =
      (s.rollbackEnded sl s.timer.countdown.resume { s.recovery with outcome := .aborted, phase := .drain }
        (s.mailbox.completed sl.command .aborted .none
          (recoveryFields { s.recovery with outcome := .aborted, phase := .drain }))
        ((s.endRollbackGate sl).events.offers s.epoch.counter
          (completionOf s sl s.epoch.counter .aborted .none))
        (if sl.command then false else s.ops.abortPending)).leaveRollback := by
  obtain ⟨waq, m, a, v, hgate⟩ := s.endRollbackGate_frame sl
  unfold State.abortDrain State.rollbackEnded
  simp only [State.completeIf_eq]
  rw [hgate]
  rfl

/-- What an ABORT honoured in DRAIN leaves (R120). -/
theorem State.abortDrain_leaves (hm : s.epoch.mode = .journaling) (hc : sl.command = true)
    (hsrc : sl.source = .command) :
    ∃ (t : State) (reports : List Report) (answers : List Answer),
      (s.abortDrain sl).closeStep = t ∧
      t = { s with
        engine := none
        ops := t.ops, gate := t.gate, timer := t.timer, mailbox := t.mailbox, events := t.events
        recovery := t.recovery, answers := t.answers, waq := t.waq, captures := t.captures
        mport := { s.mport with waiting := t.mport.waiting, ageClock := s.mport.ageClock + 1 } } ∧
      (sl.moved = true → s.gate.state = .holdAll → ∀ e ∈ t.waq, e.state ≠ .parked) ∧
      SlotFreed s t s.ops.owed (gateAfterRollback s sl) s.timer.countdown.resume (opensAtLeave s sl) ∧
      t.ops.abortPending = false ∧
      t.events = s.events.offers s.epoch.counter
        (reports ++ doneReport s.epoch.counter s.mailbox.cmd .aborted .none ::
          openingReports s sl s.epoch.counter) ∧
      (∀ x ∈ reports, x.kind = .writeRefused) ∧ t.answers = s.answers ++ answers ∧
      t.recovery = { s.recovery with outcome := .aborted, phase := .drain } ∧
      t.mailbox = s.mailbox.completed true .aborted .none (recoveryFields t.recovery) := by
  obtain ⟨l, -, he⟩ := s.endRollbackGate_refuses sl
  obtain ⟨t, ht, hfreed, habort, -, ⟨answers, hanswers⟩, hparked, hframe⟩ := State.rollbackEnded_leaves (sl := sl) hm
    s.timer.countdown.resume { s.recovery with outcome := .aborted, phase := .drain }
    (s.mailbox.completed sl.command .aborted .none
      (recoveryFields { s.recovery with outcome := .aborted, phase := .drain }))
    ((s.endRollbackGate sl).events.offers s.epoch.counter (completionOf s sl s.epoch.counter .aborted .none))
    (if sl.command then false else s.ops.abortPending)
  rw [hc] at habort
  have hdone : completionOf s sl s.epoch.counter .aborted .none =
      [doneReport s.epoch.counter s.mailbox.cmd .aborted .none] := if_pos hc
  refine ⟨t, l.map (writeRefusal s.epoch.counter), answers, by rw [State.abortDrain_eq, ht], ?_,
    hparked (by rw [hsrc]; decide), hfreed, habort, ?_, by simp, hanswers, ?_, ?_⟩
  · rw [hframe]
  · rw [hframe, he, hdone, ← Events.offers_append, ← Events.offers_append]
    rfl
  · rw [hframe]
  · rw [hframe, hc]

/-! ### ABORT of VERIFY -/

/-- What an ABORT of VERIFY leaves (R92, R141). -/
theorem State.abortScan_leaves (hm : s.epoch.mode = .journaling) (hs : s.scan = some sc) :
    ∃ t : State, (s.stopScan .aborted).freeSlot = t ∧ ScanStopped s t sc .aborted ∧
      SlotFreed s t s.ops.owed s.gate s.timer.countdown false ∧
      t = { s with
        ops := { t.ops with abortPending := false }
        gate := t.gate
        timer := t.timer
        waq := if t.ops.slot = none then s.waq else s.waq.map fun e => { e with beforeHold := true }
        scan := none
        mport := t.mport
        mailbox := t.mailbox
        events := s.events.offer s.epoch.counter (doneReport s.epoch.counter s.mailbox.cmd .aborted .none) } := by
  obtain ⟨m, hm', hab⟩ := s.abandon_verify
  have hstop : s.stopScan .aborted =
      State.complete { s with mport := m, scan := none } .aborted .none (scanData sc) := by
    simp only [State.stopScan, hs, hab]
  obtain ⟨hfreed, hframe⟩ := State.freeSlot_frees (s := State.complete { s with mport := m, scan := none } .aborted .none
    (scanData sc)) hm
  refine ⟨_, rfl, ?_, ?_, ?_⟩
  · rw [hstop, hframe]
    exact ⟨rfl, hm', rfl⟩
  · rw [hstop]
    exact hfreed.congr rfl rfl rfl rfl rfl rfl
  · rw [hstop]
    generalize hx : State.freeSlot _ = x at hframe ⊢
    rw [hframe]
    rfl

/-- Settles O26: by whether ABORT is taken, held or honoured, and by the operation that honours it. -/
theorem theAbortCommand : Obligations.TheAbortCommand := by
  intro s hr
  refine ⟨exec_abort_nothing hr, fun hc ha hheld => ?_, fun sl hc ha hs hcommand hgather hm => ?_,
    fun sl hc ha hs hcommand ho hsrc hp hm => ?_, fun sl sc hc ha hs hcommand ho hscan hm => ?_⟩
  · rw [exec_abort_taken hr hc ha, State.honourAbort_held (s := s.abortTaken) hheld]
    rfl
  · have hhonour : s.abortTaken.honourAbort = (s.abortTaken.abortGather sl).closeStep := by
      have hs' : s.abortTaken.ops.slot = some sl := hs
      rcases hgather with ⟨ho, hsrc⟩ | ho
      · simp [State.honourAbort, hs', ho, hsrc, hcommand]
      · simp [State.honourAbort, hs', ho, hcommand]
    obtain ⟨t, reports, answers, ht, hframe, hparked, hfreed, hrest⟩ :=
      State.abortGather_leaves (s := s.abortTaken) hm hcommand
    exact ⟨t, reports, answers, by rw [exec_abort_taken hr hc ha, hhonour, ht], hframe, hparked,
      hfreed.congr rfl rfl rfl rfl rfl rfl, hrest⟩
  · have hhonour : s.abortTaken.honourAbort = (s.abortTaken.abortDrain sl).closeStep := by
      have hs' : s.abortTaken.ops.slot = some sl := hs
      simp [State.honourAbort, hs', ho, hsrc, hp, hcommand]
    obtain ⟨t, reports, answers, ht, hframe, hparked, hfreed, hrest⟩ :=
      State.abortDrain_leaves (s := s.abortTaken) hm hcommand hsrc
    exact ⟨t, reports, answers, by rw [exec_abort_taken hr hc ha, hhonour, ht], hframe, hparked,
      hfreed.congr rfl rfl rfl rfl rfl rfl, hrest⟩
  · have hhonour : s.abortTaken.honourAbort = (s.abortTaken.stopScan .aborted).freeSlot := by
      have hs' : s.abortTaken.ops.slot = some sl := hs
      simp [State.honourAbort, hs', ho, hcommand]
    obtain ⟨t, ht, hstopped, hfreed, hframe⟩ := State.abortScan_leaves (s := s.abortTaken) hm hscan
    exact ⟨t, by rw [exec_abort_taken hr hc ha, hhonour, ht], hstopped,
      hfreed.congr rfl rfl rfl rfl rfl rfl, hframe⟩

end

end Sys2Proof.Machine
end


section
/-! PROOFS. The ends of GATHER: the commit, the epoch-limit ending and the discard. -/
namespace Sys2Proof.Machine
set_option Elab.async false

section
variable {s x y : State} {sl : Slot}

/-! ### The end of a hold -/

/-- A step that ends GATHER ends the hold: `y` is the state before the hold is given back, and `x` the one that the
step closes (R48, R50, R105). -/
theorem State.holdEnded
    (hy : y = { s with
      epoch := y.epoch, journal := y.journal, ltt := y.ltt, regions := y.regions, waq := y.waq, ops := y.ops
      timer := y.timer, mport := { s.mport with waiting := y.mport.waiting }, mailbox := y.mailbox
      events := y.events, answers := y.answers })
    (ha : ∃ answers, y.answers = s.answers ++ answers)
    (hx : x = { y.endHold sl with ops := x.ops, timer := x.timer, mailbox := x.mailbox, events := x.events })
    (hops : x.ops = ⟨none, ⟨false, false, false⟩, if sl.command then false else s.ops.abortPending⟩) :
    HoldEnded s x.closeStep sl := by
  obtain ⟨w, m, a, v, hhold⟩ := y.endHold_frame sl
  obtain ⟨w', c', m', hclose⟩ := x.closeStep_frame
  obtain ⟨l, hl, -⟩ := y.endHold_refuses sl
  have hgate : y.gate = s.gate := by rw [hy]
  have hxg : x.Goes x.closeStep := x.closeStep_goes
  have hxw : x.waq = (y.endHold sl).waq := by rw [hx]
  have hparked (hmoved : sl.moved = true) (hg : s.gate.state = .holdTracked) :
      ∀ e ∈ x.closeStep.waq, e.state ≠ .parked := by
    refine hxg.noneParked ?_
    rw [hxw]
    exact State.endHold_noneParked hmoved (hgate ▸ hg)
  have hanswers : ∃ answers, x.closeStep.answers = s.answers ++ answers := by
    obtain ⟨b, hb⟩ := ha
    refine ⟨b ++ l.map errorAnswer, ?_⟩
    rw [hclose, hx]
    simp only [hl, hb, List.append_assoc]
  refine ⟨?_, ?_, hparked, ?_⟩
  · rw [hclose]
    exact hops
  · rw [hclose, hx]
    simp only [hhold, hgate]
  · have hrest : x.closeStep = { s with
        epoch := x.epoch, journal := x.journal, ltt := x.ltt, regions := x.regions, waq := w', ops := x.ops
        timer := x.timer, mport := { s.mport with waiting := m', ageClock := x.mport.ageClock + 1 }
        mailbox := x.mailbox, events := x.events, answers := x.answers, gate := x.gate, captures := c' } := by
      rw [hclose, hx, hhold, hy]
    rw [hrest] at hanswers ⊢
    exact ⟨rfl, rfl, rfl, rfl, rfl, rfl, rfl, rfl, rfl, rfl, rfl, rfl, hanswers⟩

/-! ### GATHER_END -/

theorem exec_gatherEnd (hr : s.resetPhase = .running) : exec .gatherEnd s = .next s.gatherEnds :=
  whileRunning_running hr fun s => s.gatherEnds

/-- GATHER's conditions are those of R103. -/
theorem State.gatherDone_of_ended (h : GatherEnded s) : s.gatherDone = true := by
  obtain ⟨hw, hc, hj⟩ := h
  refine State.gatherDone_iff.mpr ⟨List.all_eq_true.mpr fun e he => ?_, hc, hj⟩
  cases hb : e.beforeHold with
  | false => rfl
  | true => simp [hw e he hb]

/-- A seal's GATHER ends in the commit or at the epoch limit (R15, R105). -/
theorem exec_gatherEnd_seal (hr : s.resetPhase = .running) (hs : s.ops.slot = some sl) (ho : sl.operation = .seal)
    (h : GatherEnded s) :
    exec .gatherEnd s =
      .next (if s.epoch.counter < 2 ^ 48 - 1 then s.commit sl else s.limitEnd sl).closeStep := by
  rw [exec_gatherEnd hr]
  simp only [State.gatherEnds, hs, ho, State.gatherDone_of_ended h, if_true]
  rfl

theorem exec_gatherEnd_stop (hr : s.resetPhase = .running) (hs : s.ops.slot = some sl) (ho : sl.operation = .stop)
    (h : GatherEnded s) : exec .gatherEnd s = .next (s.discard sl).closeStep := by
  rw [exec_gatherEnd hr]
  simp only [State.gatherEnds, hs, ho, State.gatherDone_of_ended h, if_true]

/-! ### The epoch-limit ending -/

/-- EPOCH_LIMIT is queued and the command has completed (R15). -/
def State.limitReported (s : State) (sl : Slot) : State :=
  { s with
    mailbox := s.mailbox.completed sl.command .rejected .epochLimit (field 4 6 s.epoch.counter)
    ops := { s.ops with abortPending := if sl.command then false else s.ops.abortPending }
    events := s.events.offers s.epoch.counter
      (⟨.epochLimit, 0, s.epoch.counter, BitVec.ofNat 64 s.epoch.counter, 1⟩ ::
        completionOf s sl s.epoch.counter .rejected .epochLimit) }

theorem State.limitEnd_eq (s : State) (sl : Slot) :
    s.limitEnd sl = { (s.limitReported sl).endHold sl with
      ops := ⟨none, ⟨false, false, false⟩, if sl.command then false else s.ops.abortPending⟩
      timer := { s.timer with countdown := .stopped } } := by
  obtain ⟨w, m, a, v, hhold⟩ := (s.limitReported sl).endHold_frame sl
  have hreported : ((s.report ⟨.epochLimit, 0, s.epoch.counter, BitVec.ofNat 64 s.epoch.counter, 1⟩).completeIf
      sl.command .rejected .epochLimit (counterData s.epoch.counter)) = s.limitReported sl := by
    rw [State.completeIf_eq]
    rfl
  simp only [State.limitEnd, hreported]
  rw [hhold]
  rfl

/-- Settles O24: the hold ends (`State.holdEnded`) on a state that keeps the table and the journal. -/
theorem aSealEndsAtTheEpochLimit : Obligations.ASealEndsAtTheEpochLimit := by
  intro s sl hr hs ho hended hlimit
  have hend : ¬s.epoch.counter < 2 ^ 48 - 1 := by omega
  obtain ⟨l, -, hl⟩ := (s.limitReported sl).endHold_refuses sl
  obtain ⟨w', c', m', hclose⟩ := (s.limitEnd sl).closeStep_frame
  have hend' : exec .gatherEnd s = .next (s.limitEnd sl).closeStep := by
    rw [exec_gatherEnd_seal hr hs ho hended, if_neg hend]
  refine ⟨_, l.map (writeRefusal s.epoch.counter), hend',
    State.holdEnded (y := s.limitReported sl) rfl ⟨[], by simp [State.limitReported]⟩ ?_ ?_,
    by simp [State.limitEnd_eq, State.limitReported], by simp [State.limitEnd_eq, State.limitReported],
    by simp [State.limitEnd_eq, State.limitReported], by simp [State.limitEnd_eq, State.limitReported],
    by simp [State.limitEnd_eq], ?_, by simp, by simp [State.limitEnd_eq, State.limitReported]⟩
  · rw [State.limitEnd_eq]
  · rw [State.limitEnd_eq]
  · rw [hclose, State.limitEnd_eq, hl]
    exact (Events.offers_append ..).symm

/-! ### The discard -/

/-- The table, the counter, the positions, the LTT and the owed flags are empty, and the shadow values are copied
(R17, R109). -/
def State.emptied (s : State) : State :=
  { s with
    epoch := { mode := .passthrough, counter := 0, table := [] }
    journal := { s.journal with head := 0, written := 0, tail := 0, ended := [] }
    ltt := []
    ops := { s.ops with owed := ⟨false, false, false⟩ }
    timer := { s.timer with countdown := .stopped }
    regions := s.regions.copied }

theorem State.discard_eq (s : State) (sl : Slot) :
    s.discard sl = { s.emptied.endHold sl with
      ops := ⟨none, ⟨false, false, false⟩, if sl.command then false else s.ops.abortPending⟩
      mailbox := s.mailbox.completed sl.command .done .none
        (field 4 6 s.epoch.counter ||| field 12 8 s.journal.head)
      events := (s.emptied.endHold sl).events.offers 0 (completionOf s sl 0 .done .none) } := by
  obtain ⟨w, m, a, v, hhold⟩ := s.emptied.endHold_frame sl
  have hdiscard : s.discard sl = State.completeIf { s.emptied.endHold sl with
      ops := { (s.emptied.endHold sl).ops with slot := none } } sl.command .done .none
        (field 4 6 s.epoch.counter ||| field 12 8 s.journal.head) := rfl
  rw [hdiscard, State.completeIf_eq, hhold]
  rfl

/-- Settles O25: the hold ends (`State.holdEnded`) on a state that was emptied. -/
theorem aStopDiscards : Obligations.AStopDiscards := by
  intro s sl hr hs ho hended
  obtain ⟨l, -, hl⟩ := s.emptied.endHold_refuses sl
  obtain ⟨w', c', m', hclose⟩ := (s.discard sl).closeStep_frame
  refine ⟨_, l.map (writeRefusal 0), exec_gatherEnd_stop hr hs ho hended,
    State.holdEnded (y := s.emptied) rfl ⟨[], by simp [State.emptied]⟩ ?_ ?_,
    by simp [State.discard_eq, State.emptied], by simp [State.discard_eq, State.emptied],
    by simp [State.discard_eq, State.emptied], by simp [State.discard_eq, State.emptied],
    by simp [State.discard_eq, State.emptied], ?_, by simp, by simp [State.discard_eq]⟩
  · rw [State.discard_eq]
  · rw [State.discard_eq]
  · rw [hclose, State.discard_eq, hl]
    exact (Events.offers_append ..).symm

end

end Sys2Proof.Machine
end


section
/-! PROOFS. The undecided writes after an epoch open: each is decided again with an empty LTT, and the reads that
were READY keep their requests. -/
namespace Sys2Proof.Machine
set_option Elab.async false

section
variable {s u v y : State} {e : WaqEntry} {sl : Slot} {st : WaqState} {more : List Request}

/-- From `s`, an epoch having opened, to `u` the undecided writes of `s` were withdrawn and some decided again in
JOURNALING with an empty LTT (R12, R62). -/
structure State.Redeciding (s u : State) : Prop where
  mode : u.epoch.mode = .journaling
  ltt : u.ltt = []
  keys_once : (u.waq.map WaqEntry.key).Nodup
  decided : ∀ x ∈ u.waq, x.txn.kind = .write →
    (x.state = .ready → u.decodeLine x.line = .untracked) ∧ (x.state = .captureWait → u.decodeLine x.line = .tracked)
  kept : ∀ x ∈ s.waq, (∃ z ∈ u.waq, z.txn = x.txn) ∨
    (x.txn.kind = .write ∧ u.decodeLine x.line = .fenced ∧ errorAnswer x.txn ∈ u.answers)
  withdrawn : ∀ x ∈ s.waq, x.undecides = true → ∀ r ∈ u.mport.waiting, r.owner = .waq x.txn.requester x.txn.tag →
    ∀ z ∈ u.waq, z.key = x.key → z.state = .ready
  reads : ∀ x ∈ s.waq, x.txn.kind = .read → x.state = .ready →
    (∃ z ∈ u.waq, z = { x with beforeHold := z.beforeHold }) ∧
      ∀ r ∈ s.mport.waiting, r.owner = .waq x.txn.requester x.txn.tag → r ∈ u.mport.waiting

theorem WaqEntry.key_eq_of_owner {x z : WaqEntry}
    (h : Owner.waq x.txn.requester x.txn.tag = .waq z.txn.requester z.txn.tag) : x.key = z.key := by
  injection h with hq hg
  exact Prod.ext hq hg

/-- A grant adds its capture read to the waiting set (R72). -/
theorem State.grantCapture_joins (u : State) (t : Transaction) :
    ∃ r : Request, r.owner = .capture t.requester t.tag ∧
      (u.grantCapture t).mport.waiting = u.mport.waiting ++ [r] := ⟨_, rfl, rfl⟩

namespace State.Redeciding

/-- The withdrawal of the undecided writes (R62). -/
theorem start (hm : u.epoch.mode = .journaling) (hl : u.ltt = [])
    (hw : u.waq = s.waq.map fun x => if x.undecides then { x with state := .waiting } else x)
    (hq : u.mport.waiting = s.mport.waiting.filter fun r => !s.waq.any fun x => x.undecides && x.owns r)
    (hn : (s.waq.map WaqEntry.key).Nodup) : s.Redeciding u := by
  have htxn (x : WaqEntry) : (if x.undecides then { x with state := .waiting } else x).txn = x.txn := by
    split <;> rfl
  refine ⟨hm, hl, ?_, fun x hx hk => ?_, fun x hx => .inl ⟨_, hw ▸ List.mem_map_of_mem hx, htxn x⟩, ?_, ?_⟩
  · have hkeys : u.waq.map WaqEntry.key = s.waq.map WaqEntry.key := by
      rw [hw, List.map_map]
      exact List.map_congr_left fun x _ => congrArg (fun t : Transaction => (t.requester, t.tag)) (htxn x)
    rw [hkeys]
    exact hn
  · rw [hw] at hx
    obtain ⟨z, -, rfl⟩ := List.mem_map.mp hx
    by_cases hun : z.undecides = true
    · rw [if_pos hun]
      exact ⟨nofun, nofun⟩
    · rw [if_neg hun] at hk ⊢
      exact ⟨fun hs => absurd (by simp [WaqEntry.undecides, hk, hs]) hun,
        fun hs => absurd (by simp [WaqEntry.undecides, hk, hs]) hun⟩
  · intro x hx hun r hr ho
    rw [hq] at hr
    have hany : s.waq.any (fun x => x.undecides && x.owns r) = true :=
      List.any_eq_true.mpr ⟨x, hx, by simp [hun, WaqEntry.owns, ho]⟩
    have hnone := (List.mem_filter.mp hr).2
    rw [hany] at hnone
    exact nomatch hnone
  · intro x hx hk hs
    have hun : x.undecides = false := by simp [WaqEntry.undecides, hk]
    refine ⟨⟨x, hw ▸ List.mem_map.mpr ⟨x, hx, by simp [hun]⟩, rfl⟩, fun r hr ho => ?_⟩
    rw [hq]
    refine List.mem_filter.mpr ⟨hr, ?_⟩
    rw [Bool.not_eq_true', List.any_eq_false]
    intro z hz hown
    obtain ⟨hzu, hzo⟩ := Bool.and_eq_true_iff.mp hown
    have hkey : z.key = x.key := WaqEntry.key_eq_of_owner ((beq_iff_eq.mp hzo).symm.trans ho)
    rw [eq_of_key hn hx hz hkey, hun] at hzu
    exact nomatch hzu

/-- A change of entries that are not decided, and of what decisions do not read. -/
theorem map (h : s.Redeciding u) {f : WaqEntry → WaqEntry} (hm : v.epoch.mode = u.epoch.mode) (hl : v.ltt = u.ltt)
    (hj : v.journal = u.journal) (hr : v.regions = u.regions) (hw : v.waq = u.waq.map f)
    (hq : v.mport.waiting = u.mport.waiting) (ha : v.answers = u.answers) (ht : ∀ x, (f x).txn = x.txn)
    (hd : ∀ x, (f x).state = .ready ∨ (f x).state = .captureWait → x.state = (f x).state)
    (hs : ∀ x, x.state = .ready → f x = { x with beforeHold := (f x).beforeHold }) : s.Redeciding v := by
  have hdec := State.decodeLine_congr hj hr
  refine ⟨hm.trans h.mode, hl.trans h.ltt, ?_, fun x hx hk => ?_, fun x hx => ?_, ?_, ?_⟩
  · have hkeys : v.waq.map WaqEntry.key = u.waq.map WaqEntry.key := by
      rw [hw, List.map_map]
      exact List.map_congr_left fun x _ => congrArg (fun t : Transaction => (t.requester, t.tag)) (ht x)
    rw [hkeys]
    exact h.keys_once
  · rw [hw] at hx
    obtain ⟨z, hz, rfl⟩ := List.mem_map.mp hx
    have hline : (f z).line = z.line := congrArg Transaction.line (ht z)
    obtain ⟨h1, h2⟩ := h.decided z hz (ht z ▸ hk)
    rw [hdec, hline]
    exact ⟨fun hst => h1 ((hd z (.inl hst)).trans hst), fun hst => h2 ((hd z (.inr hst)).trans hst)⟩
  · rw [hdec, ha, hw]
    exact (h.kept x hx).imp_left fun ⟨z, hz, hzt⟩ => ⟨f z, List.mem_map_of_mem hz, (ht z).trans hzt⟩
  · intro x hx hun r hr' ho z' hz' hk
    obtain ⟨z, hz, rfl⟩ := List.mem_map.mp (hw ▸ hz')
    have hkey : (f z).key = z.key := congrArg (fun t : Transaction => (t.requester, t.tag)) (ht z)
    have hready := h.withdrawn x hx hun r (hq ▸ hr') ho z hz (hkey.symm.trans hk)
    rw [hs z hready]
    exact hready
  · intro x hx hk hst
    obtain ⟨⟨z, hz, hzx⟩, hreq⟩ := h.reads x hx hk hst
    have hzs : z.state = .ready := by rw [hzx]; exact hst
    refine ⟨⟨f z, hw ▸ List.mem_map_of_mem hz, ?_⟩, fun r hr' ho => hq ▸ hreq r hr' ho⟩
    rw [hs z hzs]
    simp only
    rw [hzx]

/-- What decisions do not read may change. -/
theorem congr (h : s.Redeciding u) (hm : v.epoch.mode = u.epoch.mode) (hl : v.ltt = u.ltt)
    (hj : v.journal = u.journal) (hr : v.regions = u.regions) (hw : v.waq = u.waq)
    (hq : v.mport.waiting = u.mport.waiting) (ha : v.answers = u.answers) : s.Redeciding v :=
  h.map (f := id) hm hl hj hr (by rw [hw, List.map_id]) hq ha (fun _ => rfl) (fun _ _ => rfl) (fun _ _ => rfl)

/-- A decision, or the grant of a Capture Buffer entry, to an entry that is not READY (R60, R71). -/
theorem decide (h : s.Redeciding u) (he : e ∈ u.waq) (hs : e.state ≠ .ready) (hm : v.epoch.mode = u.epoch.mode)
    (hl : v.ltt = u.ltt) (hj : v.journal = u.journal) (hr : v.regions = u.regions)
    (hw : v.waq = setState u.waq e.txn.requester e.txn.tag st) (hq : v.mport.waiting = u.mport.waiting ++ more)
    (ha : v.answers = u.answers)
    (hmore : ∀ r ∈ more, r.owner.isWaq = true → st = .ready ∧ r.owner = .waq e.txn.requester e.txn.tag)
    (hd : e.txn.kind = .write →
      (st = .ready → u.decodeLine e.line = .untracked) ∧ (st = .captureWait → u.decodeLine e.line = .tracked)) :
    s.Redeciding v := by
  have hdec := State.decodeLine_congr hj hr
  have hself (z : WaqEntry) (hz : z ∈ u.waq) (hk : z.keyIs e.txn.requester e.txn.tag = true) : z = e :=
    eq_of_key h.keys_once he hz ((z.keyIs_iff _ _).mp hk)
  refine ⟨hm.trans h.mode, hl.trans h.ltt, ?_, fun x hx hk => ?_, fun x hx => ?_, ?_, ?_⟩
  · rw [hw, keys_setState]
    exact h.keys_once
  · rw [hw] at hx
    obtain ⟨z, hz, rfl⟩ := List.mem_map.mp hx
    rw [hdec]
    by_cases hkey : z.keyIs e.txn.requester e.txn.tag = true
    · rw [if_pos hkey] at hk ⊢
      obtain rfl := hself z hz hkey
      exact hd hk
    · rw [if_neg hkey] at hk ⊢
      exact h.decided z hz hk
  · rw [hdec, ha, hw]
    refine (h.kept x hx).imp_left fun ⟨z, hz, hzt⟩ => ⟨_, List.mem_map_of_mem hz, ?_⟩
    split <;> exact hzt
  · intro x hx hun r hr' ho z' hz' hk
    rw [hw] at hz'
    obtain ⟨z, hz, rfl⟩ := List.mem_map.mp hz'
    rw [hq] at hr'
    split at hk
    case isTrue hkey =>
      rw [if_pos hkey]
      rcases List.mem_append.mp hr' with hr' | hr'
      · have hz' := h.withdrawn x hx hun r hr' ho z hz hk
        rw [hself z hz hkey] at hz'
        exact absurd hz' hs
      · exact (hmore r hr' (by rw [ho]; rfl)).1
    case isFalse hkey =>
      rw [if_neg hkey]
      rcases List.mem_append.mp hr' with hr' | hr'
      · exact h.withdrawn x hx hun r hr' ho z hz hk
      · have hown := (hmore r hr' (by rw [ho]; rfl)).2
        have hkey' : x.key = e.key := WaqEntry.key_eq_of_owner (ho.symm.trans hown)
        exact absurd ((z.keyIs_iff _ _).mpr (hk.trans hkey')) hkey
  · intro x hx hk hst
    obtain ⟨⟨z, hz, hzx⟩, hreq⟩ := h.reads x hx hk hst
    have hzs : z.state = .ready := by rw [hzx]; exact hst
    have hkey : ¬z.keyIs e.txn.requester e.txn.tag = true := fun hkey => hs (hself z hz hkey ▸ hzs)
    refine ⟨⟨z, hw ▸ List.mem_map.mpr ⟨z, hz, if_neg hkey⟩, hzx⟩, fun r hr' ho => ?_⟩
    rw [hq]
    exact List.mem_append_left _ (hreq r hr' ho)

/-- The refusal of a write of a FENCED line (R43). -/
theorem refuse (h : s.Redeciding u) (he : e ∈ u.waq) (hs : e.state ≠ .ready) (hk : e.txn.kind = .write)
    (hf : u.decodeLine e.line = .fenced) :
    s.Redeciding ((u.removeWaq e.txn.requester e.txn.tag).refuse e.txn) := by
  have hself (z : WaqEntry) (hz : z ∈ u.waq) (hk : z.keyIs e.txn.requester e.txn.tag = true) : z = e :=
    eq_of_key h.keys_once he hz ((z.keyIs_iff _ _).mp hk)
  have hstays (z : WaqEntry) (hz : z ∈ u.waq) (hne : z ≠ e) :
      z ∈ ((u.removeWaq e.txn.requester e.txn.tag).refuse e.txn).waq := by
    refine List.mem_filter.mpr ⟨hz, ?_⟩
    rw [Bool.not_eq_true', Bool.eq_false_iff]
    exact fun hkey => hne (hself z hz hkey)
  refine ⟨h.mode, h.ltt, keys_without_nodup h.keys_once _ _, fun x hx => h.decided x (List.mem_of_mem_filter hx),
    fun x hx => ?_, fun x hx hun r hr ho z hz => h.withdrawn x hx hun r hr ho z (List.mem_of_mem_filter hz), ?_⟩
  · rcases h.kept x hx with ⟨z, hz, hzt⟩ | ⟨hxk, hxf, hxa⟩
    · by_cases hze : z = e
      · have hline : x.line = e.line := congrArg Transaction.line (hzt.symm.trans (congrArg _ hze))
        have htxn : x.txn = e.txn := hzt.symm.trans (congrArg _ hze)
        refine .inr ⟨htxn ▸ hk, ?_, ?_⟩
        · rw [hline]
          exact hf
        · rw [htxn]
          exact List.mem_append_right _ (List.mem_singleton_self _)
      · exact .inl ⟨z, hstays z hz hze, hzt⟩
    · exact .inr ⟨hxk, hxf, List.mem_append_left _ hxa⟩
  · intro x hx hxk hst
    obtain ⟨⟨z, hz, hzx⟩, hreq⟩ := h.reads x hx hxk hst
    have hzs : z.state = .ready := by rw [hzx]; exact hst
    exact ⟨⟨z, hstays z hz fun hze => hs (hze ▸ hzs), hzx⟩, hreq⟩

theorem settleHead (h : s.Redeciding u) (he : e ∈ u.waq) (hs : e.state = .waiting) :
    s.Redeciding (u.settleHead e) := by
  have hne : e.state ≠ .ready := by rw [hs]; decide
  rcases u.settleHead_cases e with ⟨hk, hf, heq⟩ | ⟨hun, heq⟩ | ⟨hk, ht, -, -, heq⟩
  · rw [heq]
    exact h.refuse he hne hk hf
  · obtain ⟨r, hr, hjoin⟩ := (u.setWaqState e.txn.requester e.txn.tag .ready).joinForward_frame e.txn
    have hready : u.settleHead e = _ := heq.trans hjoin
    have huntracked (hk : e.txn.kind = .write) : u.decodeLine e.line = .untracked := by
      rcases hun hk with hu | ⟨-, hm | hl⟩
      · exact hu
      · exact absurd h.mode hm
      · rw [h.ltt] at hl
        exact nomatch hl
    rw [hready]
    exact h.decide (st := .ready) (more := [r]) he hne rfl rfl rfl rfl rfl rfl rfl
      (fun x hx _ => ⟨rfl, List.mem_singleton.mp hx ▸ hr⟩) fun hk => ⟨fun _ => huntracked hk, nofun⟩
  · rw [heq]
    exact h.decide (st := .captureWait) (more := []) he hne rfl rfl rfl rfl rfl (List.append_nil _).symm rfl
      (List.forall_mem_nil _) fun _ => ⟨nofun, fun _ => ht⟩

theorem advance (h : s.Redeciding u) : s.Redeciding u.advance :=
  State.advance_induction (P := s.Redeciding) (fun _ _ h he hs => h.settleHead he hs) h

theorem grantCaptures (h : s.Redeciding u) : s.Redeciding u.grantCaptures := by
  refine State.grantCaptures_induction (P := s.Redeciding) (fun u e h he hs => ?_) h
  obtain ⟨r, hr, hjoin⟩ := u.grantCapture_joins e.txn
  exact h.decide (st := .capturing) (more := [r]) he (by rw [hs]; decide) rfl rfl rfl rfl rfl hjoin rfl
    (fun x hx ho => by rw [List.mem_singleton.mp hx, hr] at ho; exact nomatch ho)
    fun _ => ⟨fun hst => absurd hst (by decide), fun hst => absurd hst (by decide)⟩

theorem openHold (h : s.Redeciding u) : s.Redeciding u.openHold := by
  refine advance (h.map (f := fun x => if x.state = .parked then { x with state := .waiting } else x)
    rfl rfl rfl rfl rfl rfl rfl (fun x => ?_) (fun x hx => ?_) fun x hx => ?_)
  · split <;> rfl
  · split at hx
    case isTrue => rcases hx with hx | hx <;> exact nomatch hx
    case isFalse hp => rw [if_neg hp]
  · have hp : ¬x.state = .parked := by rw [hx]; decide
    rw [if_neg hp]

theorem endHold (h : s.Redeciding u) (sl : Slot) : s.Redeciding (u.endHold sl) := by
  unfold State.endHold
  split
  · exact h.openHold
  · exact h

theorem endRollbackGate (h : s.Redeciding u) (sl : Slot) : s.Redeciding (u.endRollbackGate sl) := by
  unfold State.endRollbackGate
  split
  · exact h.congr rfl rfl rfl rfl rfl rfl rfl
  · split
    · exact h.openHold
    · exact h

/-- A seal may begin a hold (R48). -/
theorem marked (h : s.Redeciding u) {p : Prop} [Decidable p] (hm : v.epoch.mode = u.epoch.mode) (hl : v.ltt = u.ltt)
    (hj : v.journal = u.journal) (hr : v.regions = u.regions)
    (hw : v.waq = if p then u.waq else u.waq.map fun x => { x with beforeHold := true })
    (hq : v.mport.waiting = u.mport.waiting) (ha : v.answers = u.answers) : s.Redeciding v := by
  split at hw
  case isTrue => exact h.congr hm hl hj hr hw hq ha
  case isFalse => exact h.map hm hl hj hr hw hq ha (fun _ => rfl) (fun _ _ => rfl) fun _ _ => rfl

/-- The end of the step leaves the undecided writes decided again (R12, R62). -/
theorem closeStep (h : s.Redeciding u) : Redecided s u.closeStep := by
  obtain ⟨-, -, -, hg⟩ := u.grantCaptures_spec
  have hc : s.Redeciding u.closeStep := h.grantCaptures.congr rfl rfl rfl rfl rfl rfl rfl
  refine ⟨hg, hc.decided, hc.kept, fun x hx hk hs z hz ht hne r hr ho => ?_, hc.reads⟩
  have hun : x.undecides = true := by
    rcases hs with hs | hs <;> simp [WaqEntry.undecides, hk, hs]
  exact hne (hc.withdrawn x hx hun r hr ho z hz (congrArg (fun t : Transaction => (t.requester, t.tag)) ht))

end State.Redeciding

/-- The epoch-open actions return the undecided writes to the decision (R12). -/
theorem State.epochOpen_redeciding (hm : y.epoch.mode = .journaling) (hw : y.waq = s.waq)
    (hq : y.mport.waiting = s.mport.waiting) (hn : (s.waq.map WaqEntry.key).Nodup) : s.Redeciding y.epochOpen :=
  State.Redeciding.advance (.start hm rfl (congrArg _ hw) (by
    rw [← hw, ← hq]
    rfl) hn)

end

end Sys2Proof.Machine
end


section
/-! PROOFS. START, the commit and the settle: an epoch opens, and the undecided writes are decided again. -/
namespace Sys2Proof.Machine
set_option Elab.async false

section
variable {s : State} {sl : Slot}

/-- What the epoch-open actions set (R12, R45, R96). -/
@[simp] theorem State.epochOpen_sets (s : State) :
    s.epochOpen.ltt = [] ∧ s.epochOpen.regions = s.regions.copied ∧ s.epochOpen.timer = s.timer.loaded := by
  obtain ⟨w, m, a, v, h⟩ := s.epochOpen_frame
  rw [h]
  exact ⟨rfl, rfl, rfl⟩

/-! ### START -/

theorem exec_start (hr : s.resetPhase = .running) (hc : s.mailbox.cmd = 0) :
    exec .start s = .next (s.begun 0x04).startJournaling :=
  runCommand_free hr hc _ _

/-- Epoch 1 is open at position 0 (R11). -/
def State.firstEpoch (s : State) : State :=
  { s with
    epoch := ⟨.journaling, 1, [⟨1, 0, .stillOpen, .usable, .start, 0⟩]⟩
    journal := { s.journal with head := 0, written := 0, tail := 0, ended := [] } }

theorem State.startJournaling_refused (hm : s.epoch.mode ≠ .passthrough) :
    s.startJournaling = s.reject .wrongMode := by
  unfold State.startJournaling
  cases h : s.epoch.mode with
  | passthrough => exact absurd h hm
  | journaling => rfl
  | broken => rfl

theorem State.startJournaling_passthrough (hm : s.epoch.mode = .passthrough) :
    s.startJournaling =
      if s.journal.capacity = 0 then s.reject .badParam
      else (s.firstEpoch.epochOpen.complete .done .none (field 4 6 1)).closeStep := by
  unfold State.startJournaling
  rw [hm]
  by_cases hc : s.journal.capacity = 0
  · simp [Journal.configured, hc]
  · simp [Journal.configured, hc]
    rfl

/-- Settles O42: epoch 1 opens, and the undecided writes are decided again (`State.Redeciding`). -/
theorem theStartCommand : Obligations.TheStartCommand := by
  intro s hr hc
  rw [exec_start hr hc]
  refine ⟨fun hm => ?_, fun hm hcap => ?_, fun hm hcap => ?_⟩
  · rw [State.startJournaling_refused (s := s.begun 0x04) hm, State.begun_reject]
  · have hcap' : (s.begun 0x04).journal.capacity = 0 := hcap
    rw [State.startJournaling_passthrough (s := s.begun 0x04) hm, if_pos hcap', State.begun_reject]
  · have hcap' : ¬(s.begun 0x04).journal.capacity = 0 := hcap
    rw [State.startJournaling_passthrough (s := s.begun 0x04) hm, if_neg hcap']
    obtain ⟨w, m, a, v, hopen⟩ := (s.begun 0x04).firstEpoch.epochOpen_frame
    obtain ⟨l, hans, hev⟩ := (s.begun 0x04).firstEpoch.epochOpen_refuses
    generalize hx : (s.begun 0x04).firstEpoch.epochOpen.complete .done .none (field 4 6 1) = x
    have hredecided (hn : (s.waq.map WaqEntry.key).Nodup) : Redecided s x.closeStep := by
      have hstart := State.epochOpen_redeciding (s := s) (y := (s.begun 0x04).firstEpoch) rfl rfl rfl hn
      refine State.Redeciding.closeStep (u := x) ?_
      rw [← hx]
      exact hstart.congr rfl rfl rfl rfl rfl rfl rfl
    have hxe : x = { s with
        epoch := ⟨.journaling, 1, [⟨1, 0, .stillOpen, .usable, .start, 0⟩]⟩
        journal := { s.journal with head := 0, written := 0, tail := 0, ended := [] }
        ltt := [], regions := s.regions.copied, timer := s.timer.loaded
        i2c := { s.i2c with index := 0x04, pointer := 1 }
        mailbox := { s.mailbox with
          cmd := 0, copy := s.mailbox.param, result := resultHeader .done .none 0x04 ||| field 4 6 1 }
        ops := { s.ops with abortPending := false }
        events := x.events, waq := w, mport := { s.mport with waiting := m }, answers := a } := by
      rw [← hx, hopen]
      rfl
    have hevents : x.events = s.events.offers 1 (l.map (writeRefusal 1) ++ [doneReport 1 0x04 .done .none]) := by
      rw [Events.offers_append, ← hx]
      rw [hopen] at hev ⊢
      exact congrArg (Events.offer · 1 (doneReport 1 0x04 .done .none)) hev
    have hanswers : x.answers = s.answers ++ l.map errorAnswer := by
      rw [← hx]
      exact hans
    obtain ⟨w', c', m', hclose⟩ := x.closeStep_frame
    refine ⟨x.closeStep, l.map (writeRefusal 1), l.map errorAnswer, rfl, ?_⟩
    generalize x.closeStep = t at hclose hredecided ⊢
    have hcmd : s.mailbox = { s.mailbox with cmd := 0 } := by rw [← hc]
    rw [hcmd]
    rw [hxe] at hclose
    subst hclose
    exact ⟨rfl, rfl, rfl, rfl, rfl, hredecided, rfl, by simp, hevents, hxe ▸ hanswers, rfl, rfl, rfl, rfl, rfl, rfl,
      rfl, rfl, rfl, rfl, rfl, rfl, rfl⟩

/-! ### The commit -/

/-- The table is committed and EPOCH_COMMITTED is queued, `c` being the entry that was OPEN (R13, R14). -/
def State.committing (s : State) (sl : Slot) (c : Checkpoint) : State :=
  { s with
    epoch := { s.epoch with
      table := commitTable s.journal.depth (s.epoch.counter + 1) s.journal.head sl.source s.epoch.table
      counter := s.epoch.counter + 1 }
    journal := { s.journal with
      tail := oldestStart s.journal.head
        (commitTable s.journal.depth (s.epoch.counter + 1) s.journal.head sl.source s.epoch.table) }
    ops := { s.ops with owed := ⟨false, false, false⟩ }
    events := s.events.offer (s.epoch.counter + 1)
      ⟨.epochCommitted, 0, c.epoch, BitVec.ofNat 64 (s.journal.head - c.start), min c.repeats 65535⟩ }

theorem State.commit_eq {c : Checkpoint} (h : s.epoch.table.getLast? = some c) (sl : Slot) :
    s.commit sl = { (s.committing sl c).epochOpen.endHold sl with
      ops := ⟨none, ⟨false, false, false⟩, if sl.command then false else s.ops.abortPending⟩
      mailbox := s.mailbox.completed sl.command .done .none (field 4 6 c.epoch ||| field 12 6 (s.epoch.counter + 1))
      events := ((s.committing sl c).epochOpen.endHold sl).events.offers (s.epoch.counter + 1)
        (completionOf s sl (s.epoch.counter + 1) .done .none) } := by
  have hclosing : s.closing = c := by
    rw [State.closing, State.openEntry, h]
    rfl
  have hcommit : s.commit sl = State.completeIf { (s.committing sl s.closing).epochOpen.endHold sl with
      ops := { ((s.committing sl s.closing).epochOpen.endHold sl).ops with slot := none } } sl.command .done .none
        (field 4 6 s.closing.epoch ||| field 12 6 (s.epoch.counter + 1)) := rfl
  obtain ⟨w, m, a, v, hopen⟩ := (s.committing sl c).epochOpen_frame
  obtain ⟨w', m', a', v', hhold⟩ := (s.committing sl c).epochOpen.endHold_frame sl
  rw [hcommit, State.completeIf_eq, hclosing, hhold, hopen]
  rfl

/-- The table of a commit, spelled out (R13). -/
theorem commitTable_drop {c : Checkpoint} {t : List Checkpoint} (h : t.getLast? = some c) (depth epoch head : Nat)
    (src : Source) :
    ∃ k, commitTable depth epoch head src t =
        (((t.dropLast ++ [{ c with state := .committed }]).filter fun x => x.condition != Condition.lost) ++
          [⟨epoch, head, .stillOpen, .usable, src, 0⟩]).drop k ∧
      (k ≠ 0 → (commitTable depth epoch head src t).length = depth) := by
  have hmodify : modifyOpen (fun c => { c with state := .committed }) t =
      t.dropLast ++ [{ c with state := .committed }] := by
    unfold modifyOpen
    rw [h]
  unfold commitTable
  rw [hmodify]
  refine ⟨_, rfl, fun hk => ?_⟩
  rw [List.length_drop]
  omega

/-- Settles O23: the table commits (`TableOk.commit`), the epoch opens (`State.Redeciding`), and the hold ends
(`State.holdEnded`). -/
theorem aSealCommits : Obligations.ASealCommits := by
  intro s sl c hr hs ho hended hlt hlast htable
  obtain ⟨l, hans, hev⟩ := (s.committing sl c).epochOpen_refuses
  obtain ⟨l', -, hev'⟩ := (s.committing sl c).epochOpen.endHold_refuses sl
  obtain ⟨w, m, a, v, hopen⟩ := (s.committing sl c).epochOpen_frame
  obtain ⟨w', c', m', hclose⟩ := (s.commit sl).closeStep_frame
  have hrun : exec .gatherEnd s = .next (s.commit sl).closeStep := by
    rw [exec_gatherEnd_seal hr hs ho hended, if_pos hlt]
  have hdepth : 1 ≤ s.journal.depth := by
    obtain ⟨old, d, hold⟩ := htable.exists_snoc
    have hbound := htable.bounded
    rw [hold, List.length_append, List.length_singleton] at hbound
    omega
  have hkept : (s.commit sl).closeStep.epoch = (s.committing sl c).epoch ∧
      (s.commit sl).closeStep.journal = (s.committing sl c).journal := by
    simp [State.commit_eq hlast]
  obtain ⟨hepoch, hjournal⟩ := hkept
  have hev : (s.committing sl c).epochOpen.events =
      (s.committing sl c).events.offers (s.epoch.counter + 1) (l.map (writeRefusal (s.epoch.counter + 1))) := hev
  have hcounter : (s.committing sl c).epochOpen.epoch.counter = s.epoch.counter + 1 := by
    rw [hopen]
    rfl
  obtain ⟨k, hk, hlength⟩ := commitTable_drop hlast s.journal.depth (s.epoch.counter + 1) s.journal.head sl.source
  refine ⟨_, l.map (writeRefusal (s.epoch.counter + 1)) ++ l'.map (writeRefusal (s.epoch.counter + 1)), hrun,
    State.holdEnded (y := (s.committing sl c).epochOpen) ?_ ⟨l.map errorAnswer, hans⟩ ?_ ?_, ?_, ?_, ?_, ?_, ?_, ?_, ?_,
    ?_, fun hm hn => ?_, ?_, ?_, ?_⟩
  · rw [hopen]
    rfl
  · rw [State.commit_eq hlast]
  · rw [State.commit_eq hlast]
  · rw [State.TableOk, hepoch, hjournal]
    exact htable.commit hdepth sl.source
  · rw [hepoch]
    rfl
  · rw [hepoch]
    rfl
  · rw [hepoch]
    exact ⟨k, hk, hlength⟩
  · rw [hjournal]
    rfl
  · simp [State.commit_eq hlast]
  · simp [State.commit_eq hlast, State.committing]
  · simp [State.commit_eq hlast, State.committing]
  · have hstart := State.epochOpen_redeciding (s := s) (y := s.committing sl c) hm rfl rfl hn
    refine State.Redeciding.closeStep ?_
    rw [State.commit_eq hlast]
    exact (hstart.endHold sl).congr rfl rfl rfl rfl rfl rfl rfl
  · rw [hclose, State.commit_eq hlast]
    simp only
    rw [hev', hcounter, hev, ← Events.offers_append, ← Events.offers_append, List.append_assoc]
    rfl
  · intro x hx
    rcases List.mem_append.mp hx with hx | hx <;> obtain ⟨t, -, rfl⟩ := List.mem_map.mp hx <;> rfl
  · simp [State.commit_eq hlast]

end

end Sys2Proof.Machine
end


section
/-! PROOFS. The settle of a rollback. -/
namespace Sys2Proof.Machine
set_option Elab.async false

section
variable {s t : State} {sl : Slot} {w : Walk}

/-- The record of a rollback that has settled (R128). -/
def State.settledRecord (s : State) : LastRecovery :=
  { s.recovery with outcome := .completed, phase := .settle, newEpoch := s.epoch.counter + 1 }

/-- The reports of a rollback that has settled, before a fence opens (R128). -/
def State.settledReports (s : State) (sl : Slot) (w : Walk) : List Report :=
  ⟨.rollbackDone, 0, s.epoch.counter + 1, BitVec.ofNat 64 w.targetEpoch, min s.recovery.restored 65535⟩ ::
    completionOf s sl (s.epoch.counter + 1) .done .none

/-- The rollback has settled and is about to leave the slot (R127, R128). -/
def State.settled (s : State) (sl : Slot) (w : Walk) : State :=
  (s.reopened w).rollbackEnded sl s.timer.loaded.countdown s.settledRecord
    (s.mailbox.completed sl.command .done .none (recoveryFields s.settledRecord))
    (((s.reopened w).endRollbackGate sl).events.offers (s.epoch.counter + 1) (s.settledReports sl w))
    (if sl.command then false else s.ops.abortPending)

/-- The epoch-open actions leave of the state before the settle what they do not set. -/
theorem State.reopened_frame (s : State) (w : Walk) :
    ∃ waq waiting answers events, s.reopened w = { s.rewound w with
      ltt := [], regions := s.regions.copied, timer := s.timer.loaded
      ops := { s.ops with owed := { s.ops.owed with timer := false } }
      waq := waq, mport := { s.mport with waiting := waiting }, answers := answers, events := events } := by
  obtain ⟨waq, m, a, v, h⟩ := (s.rewound w).epochOpen_frame
  refine ⟨waq, m, a, v, ?_⟩
  rw [State.reopened, h]
  rfl

theorem State.settle_eq_settled (s : State) (sl : Slot) (w : Walk) :
    s.settle sl w = (s.settled sl w).leaveRollback := by
  obtain ⟨waq, m, a, v, hopen⟩ := s.reopened_frame w
  obtain ⟨waq', m', a', v', hgate⟩ := (s.reopened w).endRollbackGate_frame sl
  rw [State.settle_eq, State.completeIf_eq, State.recordedDone, State.settled, State.rollbackEnded, hgate, hopen]
  rfl

/-- The undecided writes are decided again as the rollback settles (R12, R127). -/
theorem State.settle_redecided (hm : s.epoch.mode = .journaling) (hn : (s.waq.map WaqEntry.key).Nodup) (sl : Slot)
    (w : Walk) : Redecided s (s.settle sl w).closeStep := by
  have hopen : s.Redeciding (s.reopened w) :=
    (State.epochOpen_redeciding (s := s) (y := s.rewound w) hm rfl rfl hn).congr rfl rfl rfl rfl rfl rfl rfl
  have hended : s.Redeciding (s.settled sl w) := (hopen.endRollbackGate sl).congr rfl rfl rfl rfl rfl rfl rfl
  obtain ⟨-, hframe⟩ := State.leaveRollback_frees hended.mode
  rw [State.settle_eq_settled]
  have hleft : s.Redeciding (s.settled sl w).leaveRollback :=
    hended.marked (p := (s.settled sl w).leaveRollback.ops.slot = none) (by rw [hframe]) (by rw [hframe])
      (by rw [hframe]) (by rw [hframe]) (by rw [hframe]) (by rw [hframe]) (by rw [hframe])
  exact hleft.closeStep

/-- What a settle leaves (R127, R128). -/
theorem State.settle_settled {c : Checkpoint} (hm : s.epoch.mode = .journaling) (htable : s.TableOk)
    (hc : c ∈ s.epoch.table) (he : c.epoch = w.targetEpoch) (hst : c.start = w.targetStart) :
    Settled s (s.settle sl w).closeStep sl w s.recovery.restored := by
  obtain ⟨waq, m, a, v, hopen⟩ := s.reopened_frame w
  have hm' : (s.reopened w).epoch.mode = .journaling := by rw [hopen]; exact hm
  obtain ⟨t, ht, hfreed, habort, -, -, hparked, hframe⟩ := State.rollbackEnded_leaves (sl := sl) hm'
    s.timer.loaded.countdown s.settledRecord
    (s.mailbox.completed sl.command .done .none (recoveryFields s.settledRecord))
    (((s.reopened w).endRollbackGate sl).events.offers (s.epoch.counter + 1) (s.settledReports sl w))
    (if sl.command then false else s.ops.abortPending)
  have hrun : (s.settle sl w).closeStep = t := by
    rw [State.settle_eq_settled]
    exact ht
  obtain ⟨l, -, hev⟩ := (s.rewound w).epochOpen_refuses
  obtain ⟨l', -, hev'⟩ := (s.reopened w).endRollbackGate_refuses sl
  have hredecided (hn : (s.waq.map WaqEntry.key).Nodup) : Redecided s t := hrun ▸ State.settle_redecided hm hn sl w
  rw [hrun]
  have hok : Machine.TableOk s.journal.depth (s.epoch.counter + 1) s.journal.tail w.targetStart
      (settleTable w.targetEpoch (s.epoch.counter + 1) w.targetStart s.epoch.table) := by
    rw [← he, ← hst]
    exact htable.settle hc
  have hgate : gateAfterRollback (s.reopened w) sl = gateAfterRollback s sl := by
    rw [hopen]
    rfl
  have hopens : opensAtLeave (s.reopened w) sl = opensAtLeave s sl := by
    rw [hopen]
    rfl
  have hreports : openingReports (s.reopened w) sl (s.reopened w).epoch.counter =
      openingReports s sl (s.epoch.counter + 1) := by
    rw [hopen]
    rfl
  have hev : (s.reopened w).events =
      s.events.offers (s.epoch.counter + 1) (l.map (writeRefusal (s.epoch.counter + 1))) := hev
  have hcounter : (s.reopened w).epoch.counter = s.epoch.counter + 1 := by
    rw [hopen]
    rfl
  have hevents : t.events = s.events.offers (s.epoch.counter + 1)
      ((l ++ l').map (writeRefusal (s.epoch.counter + 1)) ++ s.settledReports sl w ++
        openingReports s sl (s.epoch.counter + 1)) := by
    rw [hframe]
    simp only
    rw [hreports, hev', hcounter, hev, List.map_append]
    simp only [Events.offers_append]
  have howed : (s.reopened w).ops.owed = { s.ops.owed with timer := false } := by rw [hopen]
  rw [hgate, hopens, howed] at hfreed
  rw [hopen] at hframe hparked
  refine ⟨?_, ?_, ?_, ?_, ?_, ?_, hredecided, ?_, habort, hparked, ?_, ?_,
    ⟨(l ++ l').map (writeRefusal (s.epoch.counter + 1)), ?_, ?_⟩, ?_⟩
  · rw [hframe]
    rfl
  · rw [hframe]
    exact hok
  · rw [hframe]
    rfl
  · rw [hframe]
  · rw [hframe]
  · rw [hframe]
  · refine hfreed.congr ?_ ?_ rfl rfl rfl rfl
    · rw [hframe, hopen]
    · rw [hopen]
  · rw [hframe]
    rfl
  · rw [hframe]
  · intro x hx
    obtain ⟨y, -, rfl⟩ := List.mem_map.mp hx
    rfl
  · exact hevents
  · rw [hframe]
    exact ⟨rfl, rfl, rfl, rfl, rfl, rfl, rfl⟩

/-- Settles O29: an empty walk and the last restore write both end in `State.settle` (`State.settle_settled`).
-/
theorem aRollbackSettles : Obligations.ARollbackSettles := by
  intro s sl w c hr hm hs ho hw htable hc he hst
  refine ⟨fun hp hd hhead => ⟨_, ?_, State.settle_settled hm htable hc he hst⟩,
    fun ident r image header d hout hown hwalk hcurrent => ?_⟩
  · rw [exec_drainEnd hr, State.drainEnds_eq hs ho hp hw, if_pos hd, if_pos hhead]
  · refine ⟨_, ?_, State.settle_settled (s := { s.freeRequest ident with
      recovery := { s.recovery with restored := s.recovery.restored + 1 } }) hm htable hc he hst⟩
    rw [exec_answer hr hout, State.ownerActs_restoreWrite hown,
      State.restoreWritten_okay (s := s.freeRequest ident) hs hw hwalk hcurrent, State.restored, if_pos rfl]
    rfl

end

end Sys2Proof.Machine
end
